-- ==== Sys2Proof/Word.lean ====
section
/-! DEFINITION. The two widths of the core (spec/00_scope.md R6, R9): a data byte of 8 bits and an address word of 16
bits. Arithmetic on them is modular (R10), as it is for bit vectors. -/

namespace Sys2Proof

/-- A byte: 8 bits, bit 7 the most significant. -/
abbrev Byte := BitVec 8

/-- A word: 16 bits, the width of an address and of PC. -/
abbrev Word := BitVec 16

end Sys2Proof
end

