-- ==== Sys2Proof/Config.lean ====
section
/-! DEFINITION. The free values of the machine: what the collaborators answer on the bus, which the core does not
determine (spec/00_scope.md R7, spec/20_memory.md R59, R61). Each is an uninterpreted constant, applied to the number of
the draw (the counter `draws` of the state), so that nothing can be proved of a value. -/

namespace Sys2Proof

/-- The byte the picture device answers to `readRegister r`, at draw `n`: "a free input of the step (a draw), under no
law" (R61; log 3). -/
opaque Config.ppuReadRegister (n : Nat) (r : BitVec 3) : Byte

/-- The byte the audio/IO device answers to `readRegister r`, at draw `n` (R61; log 3). -/
opaque Config.apuReadRegister (n : Nat) (r : Fin 24) : Byte

/-- What a mapper other than the reference mapper answers to `read a`, at draw `n`: a byte, or a failure with its own
detail (R59, spec/60_exceptions.md R302; log 5, log 15). -/
opaque Config.otherMapperRead (n : Nat) (a : Word) : Except Nat Byte

/-- What a mapper other than the reference mapper answers to `write a v`, at draw `n`: done, or a failure with its own
detail (R59, spec/60_exceptions.md R302; log 5, log 15). -/
opaque Config.otherMapperWrite (n : Nat) (a : Word) (v : Byte) : Except Nat Unit

end Sys2Proof
end

