-- ==== Sys2Proof/Syntax.lean ====
section
/-! DEFINITION. The syntax of the 6502 core: the 13 addressing modes (spec/30_encoding.md R94), the classes of
operation with their operands (spec/41_addressing_modes.md R154), and `Instr`, one constructor for each row of
spec/opcode_table.json. A byte operand is kept as the byte of the encoding, a 16-bit operand as the word `hi:lo`
(R93, R95). -/

namespace Sys2Proof

/-- The mode tags of R94. -/
inductive Mode where
  | imm | zp | zpX | zpY | abs | absX | absY | ind | indX | indY | rel | impl | acc
  deriving DecidableEq, Repr

/-- An operand in memory, with the operand bytes of its mode (R143 to R146, R148, R149). -/
inductive MemArg where
  | zp (b : Byte)
  | zpX (b : Byte)
  | zpY (b : Byte)
  | abs (w : Word)
  | absX (w : Word)
  | absY (w : Word)
  | indX (b : Byte)
  | indY (b : Byte)
  deriving DecidableEq, Repr

/-- The operand of an instruction that reads: the immediate byte, or a byte of memory (R154). -/
inductive ReadArg where
  | imm (v : Byte)
  | mem (m : MemArg)
  deriving DecidableEq, Repr

/-- The operand of a read-modify-write instruction: the accumulator, or a byte of memory (R154). -/
inductive ModifyArg where
  | acc
  | mem (m : MemArg)
  deriving DecidableEq, Repr

/-- The operand of JMP: its target, or a pointer to it (R154). -/
inductive JumpArg where
  | abs (w : Word)
  | ind (w : Word)
  deriving DecidableEq, Repr

/-- The mnemonics that load an operand (R154). -/
inductive ReadOp where
  | lda | ldx | ldy | adc | sbc | and | ora | eor | bit | cmp | cpx | cpy
  deriving DecidableEq, Repr

/-- The mnemonics that store an operand (R154). -/
inductive WriteOp where
  | sta | stx | sty
  deriving DecidableEq, Repr

/-- The read-modify-write mnemonics (R154). -/
inductive ModifyOp where
  | asl | lsr | rol | ror | inc | dec
  deriving DecidableEq, Repr

/-- The eight branches (R154). -/
inductive BranchOp where
  | bcc | bcs | beq | bmi | bne | bpl | bvc | bvs
  deriving DecidableEq, Repr

/-- The mnemonics with no operand byte and no operand marker (R154). -/
inductive ImpliedOp where
  | tax | tay | txa | tya | tsx | txs
  | pha | php | pla | plp
  | inx | iny | dex | dey
  | rts | rti | brk
  | clc | cld | cli | clv | sec | sed | sei | nop
  deriving DecidableEq, Repr

/-- A mnemonic together with a mode and the operand bytes of that mode, by class (R154). Not every form is an
instruction: `Form.wellFormed` says which are. -/
inductive Form where
  | read (op : ReadOp) (src : ReadArg)
  | write (op : WriteOp) (dst : MemArg)
  | modify (op : ModifyOp) (tgt : ModifyArg)
  | branch (op : BranchOp) (d : Byte)
  | jump (tgt : JumpArg)
  | call (w : Word)
  | implied (op : ImpliedOp)
  deriving DecidableEq, Repr

/-- The documented instructions, one constructor for each of the 151 rows of spec/opcode_table.json (R96 to R98). -/
inductive Instr where
  | ldaImm (v : Byte)
  | ldaZp (b : Byte)
  | ldaZpX (b : Byte)
  | ldaAbs (w : Word)
  | ldaAbsX (w : Word)
  | ldaAbsY (w : Word)
  | ldaIndX (b : Byte)
  | ldaIndY (b : Byte)
  | ldxImm (v : Byte)
  | ldxZp (b : Byte)
  | ldxZpY (b : Byte)
  | ldxAbs (w : Word)
  | ldxAbsY (w : Word)
  | ldyImm (v : Byte)
  | ldyZp (b : Byte)
  | ldyZpX (b : Byte)
  | ldyAbs (w : Word)
  | ldyAbsX (w : Word)
  | staZp (b : Byte)
  | staZpX (b : Byte)
  | staAbs (w : Word)
  | staAbsX (w : Word)
  | staAbsY (w : Word)
  | staIndX (b : Byte)
  | staIndY (b : Byte)
  | stxZp (b : Byte)
  | stxZpY (b : Byte)
  | stxAbs (w : Word)
  | styZp (b : Byte)
  | styZpX (b : Byte)
  | styAbs (w : Word)
  | tax
  | tay
  | txa
  | tya
  | tsx
  | txs
  | pha
  | php
  | pla
  | plp
  | adcImm (v : Byte)
  | adcZp (b : Byte)
  | adcZpX (b : Byte)
  | adcAbs (w : Word)
  | adcAbsX (w : Word)
  | adcAbsY (w : Word)
  | adcIndX (b : Byte)
  | adcIndY (b : Byte)
  | sbcImm (v : Byte)
  | sbcZp (b : Byte)
  | sbcZpX (b : Byte)
  | sbcAbs (w : Word)
  | sbcAbsX (w : Word)
  | sbcAbsY (w : Word)
  | sbcIndX (b : Byte)
  | sbcIndY (b : Byte)
  | andImm (v : Byte)
  | andZp (b : Byte)
  | andZpX (b : Byte)
  | andAbs (w : Word)
  | andAbsX (w : Word)
  | andAbsY (w : Word)
  | andIndX (b : Byte)
  | andIndY (b : Byte)
  | oraImm (v : Byte)
  | oraZp (b : Byte)
  | oraZpX (b : Byte)
  | oraAbs (w : Word)
  | oraAbsX (w : Word)
  | oraAbsY (w : Word)
  | oraIndX (b : Byte)
  | oraIndY (b : Byte)
  | eorImm (v : Byte)
  | eorZp (b : Byte)
  | eorZpX (b : Byte)
  | eorAbs (w : Word)
  | eorAbsX (w : Word)
  | eorAbsY (w : Word)
  | eorIndX (b : Byte)
  | eorIndY (b : Byte)
  | bitZp (b : Byte)
  | bitAbs (w : Word)
  | cmpImm (v : Byte)
  | cmpZp (b : Byte)
  | cmpZpX (b : Byte)
  | cmpAbs (w : Word)
  | cmpAbsX (w : Word)
  | cmpAbsY (w : Word)
  | cmpIndX (b : Byte)
  | cmpIndY (b : Byte)
  | cpxImm (v : Byte)
  | cpxZp (b : Byte)
  | cpxAbs (w : Word)
  | cpyImm (v : Byte)
  | cpyZp (b : Byte)
  | cpyAbs (w : Word)
  | aslZp (b : Byte)
  | aslZpX (b : Byte)
  | aslAbs (w : Word)
  | aslAbsX (w : Word)
  | aslAcc
  | lsrZp (b : Byte)
  | lsrZpX (b : Byte)
  | lsrAbs (w : Word)
  | lsrAbsX (w : Word)
  | lsrAcc
  | rolZp (b : Byte)
  | rolZpX (b : Byte)
  | rolAbs (w : Word)
  | rolAbsX (w : Word)
  | rolAcc
  | rorZp (b : Byte)
  | rorZpX (b : Byte)
  | rorAbs (w : Word)
  | rorAbsX (w : Word)
  | rorAcc
  | incZp (b : Byte)
  | incZpX (b : Byte)
  | incAbs (w : Word)
  | incAbsX (w : Word)
  | decZp (b : Byte)
  | decZpX (b : Byte)
  | decAbs (w : Word)
  | decAbsX (w : Word)
  | inx
  | iny
  | dex
  | dey
  | bcc (d : Byte)
  | bcs (d : Byte)
  | beq (d : Byte)
  | bmi (d : Byte)
  | bne (d : Byte)
  | bpl (d : Byte)
  | bvc (d : Byte)
  | bvs (d : Byte)
  | jmpAbs (w : Word)
  | jmpInd (w : Word)
  | jsr (w : Word)
  | rts
  | rti
  | brk
  | clc
  | cld
  | cli
  | clv
  | sec
  | sed
  | sei
  | nop
  deriving DecidableEq, Repr

/-- The addressing mode of a memory operand. -/
def MemArg.mode : MemArg → Mode
  | .zp _ => .zp
  | .zpX _ => .zpX
  | .zpY _ => .zpY
  | .abs _ => .abs
  | .absX _ => .absX
  | .absY _ => .absY
  | .indX _ => .indX
  | .indY _ => .indY

/-- The addressing mode of a read operand. -/
def ReadArg.mode : ReadArg → Mode
  | .imm _ => .imm
  | .mem m => m.mode

/-- The addressing mode of a read-modify-write operand. -/
def ModifyArg.mode : ModifyArg → Mode
  | .acc => .acc
  | .mem m => m.mode

/-- The addressing mode of a form. -/
def Form.mode : Form → Mode
  | .read _ src => src.mode
  | .write _ dst => dst.mode
  | .modify _ tgt => tgt.mode
  | .branch _ _ => .rel
  | .jump (.abs _) => .abs
  | .jump (.ind _) => .ind
  | .call _ => .abs
  | .implied _ => .impl

/-- The class, mode and operand of each instruction (R97, R154). -/
def Instr.form : Instr → Form
  | .ldaImm v => .read .lda (.imm v)
  | .ldaZp b => .read .lda (.mem (.zp b))
  | .ldaZpX b => .read .lda (.mem (.zpX b))
  | .ldaAbs w => .read .lda (.mem (.abs w))
  | .ldaAbsX w => .read .lda (.mem (.absX w))
  | .ldaAbsY w => .read .lda (.mem (.absY w))
  | .ldaIndX b => .read .lda (.mem (.indX b))
  | .ldaIndY b => .read .lda (.mem (.indY b))
  | .ldxImm v => .read .ldx (.imm v)
  | .ldxZp b => .read .ldx (.mem (.zp b))
  | .ldxZpY b => .read .ldx (.mem (.zpY b))
  | .ldxAbs w => .read .ldx (.mem (.abs w))
  | .ldxAbsY w => .read .ldx (.mem (.absY w))
  | .ldyImm v => .read .ldy (.imm v)
  | .ldyZp b => .read .ldy (.mem (.zp b))
  | .ldyZpX b => .read .ldy (.mem (.zpX b))
  | .ldyAbs w => .read .ldy (.mem (.abs w))
  | .ldyAbsX w => .read .ldy (.mem (.absX w))
  | .staZp b => .write .sta (.zp b)
  | .staZpX b => .write .sta (.zpX b)
  | .staAbs w => .write .sta (.abs w)
  | .staAbsX w => .write .sta (.absX w)
  | .staAbsY w => .write .sta (.absY w)
  | .staIndX b => .write .sta (.indX b)
  | .staIndY b => .write .sta (.indY b)
  | .stxZp b => .write .stx (.zp b)
  | .stxZpY b => .write .stx (.zpY b)
  | .stxAbs w => .write .stx (.abs w)
  | .styZp b => .write .sty (.zp b)
  | .styZpX b => .write .sty (.zpX b)
  | .styAbs w => .write .sty (.abs w)
  | .tax => .implied .tax
  | .tay => .implied .tay
  | .txa => .implied .txa
  | .tya => .implied .tya
  | .tsx => .implied .tsx
  | .txs => .implied .txs
  | .pha => .implied .pha
  | .php => .implied .php
  | .pla => .implied .pla
  | .plp => .implied .plp
  | .adcImm v => .read .adc (.imm v)
  | .adcZp b => .read .adc (.mem (.zp b))
  | .adcZpX b => .read .adc (.mem (.zpX b))
  | .adcAbs w => .read .adc (.mem (.abs w))
  | .adcAbsX w => .read .adc (.mem (.absX w))
  | .adcAbsY w => .read .adc (.mem (.absY w))
  | .adcIndX b => .read .adc (.mem (.indX b))
  | .adcIndY b => .read .adc (.mem (.indY b))
  | .sbcImm v => .read .sbc (.imm v)
  | .sbcZp b => .read .sbc (.mem (.zp b))
  | .sbcZpX b => .read .sbc (.mem (.zpX b))
  | .sbcAbs w => .read .sbc (.mem (.abs w))
  | .sbcAbsX w => .read .sbc (.mem (.absX w))
  | .sbcAbsY w => .read .sbc (.mem (.absY w))
  | .sbcIndX b => .read .sbc (.mem (.indX b))
  | .sbcIndY b => .read .sbc (.mem (.indY b))
  | .andImm v => .read .and (.imm v)
  | .andZp b => .read .and (.mem (.zp b))
  | .andZpX b => .read .and (.mem (.zpX b))
  | .andAbs w => .read .and (.mem (.abs w))
  | .andAbsX w => .read .and (.mem (.absX w))
  | .andAbsY w => .read .and (.mem (.absY w))
  | .andIndX b => .read .and (.mem (.indX b))
  | .andIndY b => .read .and (.mem (.indY b))
  | .oraImm v => .read .ora (.imm v)
  | .oraZp b => .read .ora (.mem (.zp b))
  | .oraZpX b => .read .ora (.mem (.zpX b))
  | .oraAbs w => .read .ora (.mem (.abs w))
  | .oraAbsX w => .read .ora (.mem (.absX w))
  | .oraAbsY w => .read .ora (.mem (.absY w))
  | .oraIndX b => .read .ora (.mem (.indX b))
  | .oraIndY b => .read .ora (.mem (.indY b))
  | .eorImm v => .read .eor (.imm v)
  | .eorZp b => .read .eor (.mem (.zp b))
  | .eorZpX b => .read .eor (.mem (.zpX b))
  | .eorAbs w => .read .eor (.mem (.abs w))
  | .eorAbsX w => .read .eor (.mem (.absX w))
  | .eorAbsY w => .read .eor (.mem (.absY w))
  | .eorIndX b => .read .eor (.mem (.indX b))
  | .eorIndY b => .read .eor (.mem (.indY b))
  | .bitZp b => .read .bit (.mem (.zp b))
  | .bitAbs w => .read .bit (.mem (.abs w))
  | .cmpImm v => .read .cmp (.imm v)
  | .cmpZp b => .read .cmp (.mem (.zp b))
  | .cmpZpX b => .read .cmp (.mem (.zpX b))
  | .cmpAbs w => .read .cmp (.mem (.abs w))
  | .cmpAbsX w => .read .cmp (.mem (.absX w))
  | .cmpAbsY w => .read .cmp (.mem (.absY w))
  | .cmpIndX b => .read .cmp (.mem (.indX b))
  | .cmpIndY b => .read .cmp (.mem (.indY b))
  | .cpxImm v => .read .cpx (.imm v)
  | .cpxZp b => .read .cpx (.mem (.zp b))
  | .cpxAbs w => .read .cpx (.mem (.abs w))
  | .cpyImm v => .read .cpy (.imm v)
  | .cpyZp b => .read .cpy (.mem (.zp b))
  | .cpyAbs w => .read .cpy (.mem (.abs w))
  | .aslZp b => .modify .asl (.mem (.zp b))
  | .aslZpX b => .modify .asl (.mem (.zpX b))
  | .aslAbs w => .modify .asl (.mem (.abs w))
  | .aslAbsX w => .modify .asl (.mem (.absX w))
  | .aslAcc => .modify .asl .acc
  | .lsrZp b => .modify .lsr (.mem (.zp b))
  | .lsrZpX b => .modify .lsr (.mem (.zpX b))
  | .lsrAbs w => .modify .lsr (.mem (.abs w))
  | .lsrAbsX w => .modify .lsr (.mem (.absX w))
  | .lsrAcc => .modify .lsr .acc
  | .rolZp b => .modify .rol (.mem (.zp b))
  | .rolZpX b => .modify .rol (.mem (.zpX b))
  | .rolAbs w => .modify .rol (.mem (.abs w))
  | .rolAbsX w => .modify .rol (.mem (.absX w))
  | .rolAcc => .modify .rol .acc
  | .rorZp b => .modify .ror (.mem (.zp b))
  | .rorZpX b => .modify .ror (.mem (.zpX b))
  | .rorAbs w => .modify .ror (.mem (.abs w))
  | .rorAbsX w => .modify .ror (.mem (.absX w))
  | .rorAcc => .modify .ror .acc
  | .incZp b => .modify .inc (.mem (.zp b))
  | .incZpX b => .modify .inc (.mem (.zpX b))
  | .incAbs w => .modify .inc (.mem (.abs w))
  | .incAbsX w => .modify .inc (.mem (.absX w))
  | .decZp b => .modify .dec (.mem (.zp b))
  | .decZpX b => .modify .dec (.mem (.zpX b))
  | .decAbs w => .modify .dec (.mem (.abs w))
  | .decAbsX w => .modify .dec (.mem (.absX w))
  | .inx => .implied .inx
  | .iny => .implied .iny
  | .dex => .implied .dex
  | .dey => .implied .dey
  | .bcc d => .branch .bcc d
  | .bcs d => .branch .bcs d
  | .beq d => .branch .beq d
  | .bmi d => .branch .bmi d
  | .bne d => .branch .bne d
  | .bpl d => .branch .bpl d
  | .bvc d => .branch .bvc d
  | .bvs d => .branch .bvs d
  | .jmpAbs w => .jump (.abs w)
  | .jmpInd w => .jump (.ind w)
  | .jsr w => .call w
  | .rts => .implied .rts
  | .rti => .implied .rti
  | .brk => .implied .brk
  | .clc => .implied .clc
  | .cld => .implied .cld
  | .cli => .implied .cli
  | .clv => .implied .clv
  | .sec => .implied .sec
  | .sed => .implied .sed
  | .sei => .implied .sei
  | .nop => .implied .nop

end Sys2Proof
end

