-- ==== Sys2Proof/WellFormed.lean ====
section
/-! DEFINITION. Which forms are instructions: the allowed modes of each mnemonic (spec/41_addressing_modes.md R154). An
`Instr` has a well-formed form by construction; a `Form` need not. -/

namespace Sys2Proof

/-- The modes of each mnemonic that loads an operand (R154). -/
def ReadOp.modes : ReadOp → List Mode
  | .lda | .adc | .sbc | .and | .ora | .eor | .cmp => [.imm, .zp, .zpX, .abs, .absX, .absY, .indX, .indY]
  | .ldx => [.imm, .zp, .zpY, .abs, .absY]
  | .ldy => [.imm, .zp, .zpX, .abs, .absX]
  | .cpx | .cpy => [.imm, .zp, .abs]
  | .bit => [.zp, .abs]

/-- The modes of each store (R154). -/
def WriteOp.modes : WriteOp → List Mode
  | .sta => [.zp, .zpX, .abs, .absX, .absY, .indX, .indY]
  | .stx => [.zp, .zpY, .abs]
  | .sty => [.zp, .zpX, .abs]

/-- The modes of each read-modify-write mnemonic (R154). -/
def ModifyOp.modes : ModifyOp → List Mode
  | .asl | .lsr | .rol | .ror => [.acc, .zp, .zpX, .abs, .absX]
  | .inc | .dec => [.zp, .zpX, .abs, .absX]

/-- A form is well formed when its mnemonic has its mode (R154). The classes whose every form is an instruction need no
check. -/
def Form.wellFormed : Form → Bool
  | .read op src => op.modes.contains src.mode
  | .write op dst => op.modes.contains dst.mode
  | .modify op tgt => op.modes.contains tgt.mode
  | .branch _ _ => true
  | .jump _ => true
  | .call _ => true
  | .implied _ => true

/-- An instruction is well formed when its form is. -/
def Instr.wellFormed (i : Instr) : Bool := i.form.wellFormed

end Sys2Proof
end

