-- ==== Sys2Proof/Decode.lean ====
section
/-! DEFINITION. Instruction encoding (spec/30_encoding.md). The decoder follows the opcode map of R96, row by row. The
encoder is written from the table by mnemonic of R97. Byte order is little-endian (spec/20_memory.md R65). -/

namespace Sys2Proof

/-- `lo(w)` of spec/00_scope.md R9. -/
def lowByte (w : Word) : Byte := w.setWidth 8

/-- `hi(w)` of spec/00_scope.md R9. -/
def highByte (w : Word) : Byte := (w >>> 8).setWidth 8

/-- The word `hi:lo` of spec/00_scope.md R9. -/
def joinBytes (hi lo : Byte) : Word := hi ++ lo

/-- The length of an instruction of each mode: 1 plus its operand bytes (spec/30_encoding.md R94). -/
def Mode.length : Mode → Nat
  | .imm | .zp | .zpX | .zpY | .indX | .indY | .rel => 2
  | .abs | .absX | .absY | .ind => 3
  | .impl | .acc => 1

/-- What an opcode byte says of the instruction: complete in one byte (format F1, R91), or short of one operand byte
(F2, R92) or of a little-endian operand word (F3, R93). -/
inductive Shape where
  | one (i : Instr)
  | two (mk : Byte → Instr)
  | three (mk : Word → Instr)

/-- The length in bytes that the opcode fixes (R94). -/
def Shape.length : Shape → Nat
  | .one _ => 1
  | .two _ => 2
  | .three _ => 3

/-- Row 0x of the opcode map (R96). -/
def opcodeRow0 : List (Byte × Shape) :=
  [(0x00#8, .one .brk), (0x01#8, .two .oraIndX), (0x05#8, .two .oraZp), (0x06#8, .two .aslZp),
   (0x08#8, .one .php), (0x09#8, .two .oraImm), (0x0A#8, .one .aslAcc), (0x0D#8, .three .oraAbs),
   (0x0E#8, .three .aslAbs)]

/-- Row 1x of the opcode map (R96). -/
def opcodeRow1 : List (Byte × Shape) :=
  [(0x10#8, .two .bpl), (0x11#8, .two .oraIndY), (0x15#8, .two .oraZpX), (0x16#8, .two .aslZpX),
   (0x18#8, .one .clc), (0x19#8, .three .oraAbsY), (0x1D#8, .three .oraAbsX), (0x1E#8, .three .aslAbsX)]

/-- Row 2x of the opcode map (R96). -/
def opcodeRow2 : List (Byte × Shape) :=
  [(0x20#8, .three .jsr), (0x21#8, .two .andIndX), (0x24#8, .two .bitZp), (0x25#8, .two .andZp),
   (0x26#8, .two .rolZp), (0x28#8, .one .plp), (0x29#8, .two .andImm), (0x2A#8, .one .rolAcc),
   (0x2C#8, .three .bitAbs), (0x2D#8, .three .andAbs), (0x2E#8, .three .rolAbs)]

/-- Row 3x of the opcode map (R96). -/
def opcodeRow3 : List (Byte × Shape) :=
  [(0x30#8, .two .bmi), (0x31#8, .two .andIndY), (0x35#8, .two .andZpX), (0x36#8, .two .rolZpX),
   (0x38#8, .one .sec), (0x39#8, .three .andAbsY), (0x3D#8, .three .andAbsX), (0x3E#8, .three .rolAbsX)]

/-- Row 4x of the opcode map (R96). -/
def opcodeRow4 : List (Byte × Shape) :=
  [(0x40#8, .one .rti), (0x41#8, .two .eorIndX), (0x45#8, .two .eorZp), (0x46#8, .two .lsrZp),
   (0x48#8, .one .pha), (0x49#8, .two .eorImm), (0x4A#8, .one .lsrAcc), (0x4C#8, .three .jmpAbs),
   (0x4D#8, .three .eorAbs), (0x4E#8, .three .lsrAbs)]

/-- Row 5x of the opcode map (R96). -/
def opcodeRow5 : List (Byte × Shape) :=
  [(0x50#8, .two .bvc), (0x51#8, .two .eorIndY), (0x55#8, .two .eorZpX), (0x56#8, .two .lsrZpX),
   (0x58#8, .one .cli), (0x59#8, .three .eorAbsY), (0x5D#8, .three .eorAbsX), (0x5E#8, .three .lsrAbsX)]

/-- Row 6x of the opcode map (R96). -/
def opcodeRow6 : List (Byte × Shape) :=
  [(0x60#8, .one .rts), (0x61#8, .two .adcIndX), (0x65#8, .two .adcZp), (0x66#8, .two .rorZp),
   (0x68#8, .one .pla), (0x69#8, .two .adcImm), (0x6A#8, .one .rorAcc), (0x6C#8, .three .jmpInd),
   (0x6D#8, .three .adcAbs), (0x6E#8, .three .rorAbs)]

/-- Row 7x of the opcode map (R96). -/
def opcodeRow7 : List (Byte × Shape) :=
  [(0x70#8, .two .bvs), (0x71#8, .two .adcIndY), (0x75#8, .two .adcZpX), (0x76#8, .two .rorZpX),
   (0x78#8, .one .sei), (0x79#8, .three .adcAbsY), (0x7D#8, .three .adcAbsX), (0x7E#8, .three .rorAbsX)]

/-- Row 8x of the opcode map (R96). -/
def opcodeRow8 : List (Byte × Shape) :=
  [(0x81#8, .two .staIndX), (0x84#8, .two .styZp), (0x85#8, .two .staZp), (0x86#8, .two .stxZp),
   (0x88#8, .one .dey), (0x8A#8, .one .txa), (0x8C#8, .three .styAbs), (0x8D#8, .three .staAbs),
   (0x8E#8, .three .stxAbs)]

/-- Row 9x of the opcode map (R96). -/
def opcodeRow9 : List (Byte × Shape) :=
  [(0x90#8, .two .bcc), (0x91#8, .two .staIndY), (0x94#8, .two .styZpX), (0x95#8, .two .staZpX),
   (0x96#8, .two .stxZpY), (0x98#8, .one .tya), (0x99#8, .three .staAbsY), (0x9A#8, .one .txs),
   (0x9D#8, .three .staAbsX)]

/-- Row Ax of the opcode map (R96). -/
def opcodeRowA : List (Byte × Shape) :=
  [(0xA0#8, .two .ldyImm), (0xA1#8, .two .ldaIndX), (0xA2#8, .two .ldxImm), (0xA4#8, .two .ldyZp),
   (0xA5#8, .two .ldaZp), (0xA6#8, .two .ldxZp), (0xA8#8, .one .tay), (0xA9#8, .two .ldaImm),
   (0xAA#8, .one .tax), (0xAC#8, .three .ldyAbs), (0xAD#8, .three .ldaAbs), (0xAE#8, .three .ldxAbs)]

/-- Row Bx of the opcode map (R96). -/
def opcodeRowB : List (Byte × Shape) :=
  [(0xB0#8, .two .bcs), (0xB1#8, .two .ldaIndY), (0xB4#8, .two .ldyZpX), (0xB5#8, .two .ldaZpX),
   (0xB6#8, .two .ldxZpY), (0xB8#8, .one .clv), (0xB9#8, .three .ldaAbsY), (0xBA#8, .one .tsx),
   (0xBC#8, .three .ldyAbsX), (0xBD#8, .three .ldaAbsX), (0xBE#8, .three .ldxAbsY)]

/-- Row Cx of the opcode map (R96). -/
def opcodeRowC : List (Byte × Shape) :=
  [(0xC0#8, .two .cpyImm), (0xC1#8, .two .cmpIndX), (0xC4#8, .two .cpyZp), (0xC5#8, .two .cmpZp),
   (0xC6#8, .two .decZp), (0xC8#8, .one .iny), (0xC9#8, .two .cmpImm), (0xCA#8, .one .dex),
   (0xCC#8, .three .cpyAbs), (0xCD#8, .three .cmpAbs), (0xCE#8, .three .decAbs)]

/-- Row Dx of the opcode map (R96). -/
def opcodeRowD : List (Byte × Shape) :=
  [(0xD0#8, .two .bne), (0xD1#8, .two .cmpIndY), (0xD5#8, .two .cmpZpX), (0xD6#8, .two .decZpX),
   (0xD8#8, .one .cld), (0xD9#8, .three .cmpAbsY), (0xDD#8, .three .cmpAbsX), (0xDE#8, .three .decAbsX)]

/-- Row Ex of the opcode map (R96). -/
def opcodeRowE : List (Byte × Shape) :=
  [(0xE0#8, .two .cpxImm), (0xE1#8, .two .sbcIndX), (0xE4#8, .two .cpxZp), (0xE5#8, .two .sbcZp),
   (0xE6#8, .two .incZp), (0xE8#8, .one .inx), (0xE9#8, .two .sbcImm), (0xEA#8, .one .nop),
   (0xEC#8, .three .cpxAbs), (0xED#8, .three .sbcAbs), (0xEE#8, .three .incAbs)]

/-- Row Fx of the opcode map (R96). -/
def opcodeRowF : List (Byte × Shape) :=
  [(0xF0#8, .two .beq), (0xF1#8, .two .sbcIndY), (0xF5#8, .two .sbcZpX), (0xF6#8, .two .incZpX),
   (0xF8#8, .one .sed), (0xF9#8, .three .sbcAbsY), (0xFD#8, .three .sbcAbsX), (0xFE#8, .three .incAbsX)]

/-- The opcode map of R96: the documented opcodes of the row of each high nibble. -/
def opcodeRow : Nat → List (Byte × Shape)
  | 0 => opcodeRow0
  | 1 => opcodeRow1
  | 2 => opcodeRow2
  | 3 => opcodeRow3
  | 4 => opcodeRow4
  | 5 => opcodeRow5
  | 6 => opcodeRow6
  | 7 => opcodeRow7
  | 8 => opcodeRow8
  | 9 => opcodeRow9
  | 10 => opcodeRowA
  | 11 => opcodeRowB
  | 12 => opcodeRowC
  | 13 => opcodeRowD
  | 14 => opcodeRowE
  | 15 => opcodeRowF
  | _ => []

/-- The entry of an opcode in a list of rows. -/
def lookupOpcode : List (Byte × Shape) → Byte → Option Shape
  | [], _ => none
  | (k, sh) :: rest, op => if k = op then some sh else lookupOpcode rest op

/-- Decode of an opcode byte, by its row and then its column (R96, R106): `none` is one of the 105 bytes of R103. -/
def decodeOpcode (op : Byte) : Option Shape := lookupOpcode (opcodeRow (op.toNat / 16)) op

/-- Why bytes are not an instruction: an undocumented opcode (R103, R105), or too few bytes for the opcode's length. -/
inductive DecodeError where
  | illegalOpcode (op : Byte)
  | truncated
  deriving DecidableEq, Repr

/-- Decode one instruction from a byte stream and give back the rest of the stream (R90 to R95, R106). -/
def decode : List Byte → Except DecodeError (Instr × List Byte)
  | [] => .error .truncated
  | op :: bs =>
    match decodeOpcode op, bs with
    | none, _ => .error (.illegalOpcode op)
    | some (.one i), rest => .ok (i, rest)
    | some (.two mk), b :: rest => .ok (mk b, rest)
    | some (.three mk), lo :: hi :: rest => .ok (mk (joinBytes hi lo), rest)
    | some _, _ => .error .truncated

/-- The three bytes of the table word `w` of `nbits` bits: bit 0 of `w` is bit 0 of the first byte, and every bit from
`nbits` on is 0. -/
def tableWordBytes (nbits w : Nat) : List Byte :=
  let v := w % 2 ^ nbits
  [BitVec.ofNat 8 v, BitVec.ofNat 8 (v / 256), BitVec.ofNat 8 (v / 65536)]

/-- The instruction that the decoder reads from a word of spec/opcode_table.json. -/
def decodeTableWord (nbits w : Nat) : Option Instr :=
  match decode (tableWordBytes nbits w) with
  | .ok (i, _) => some i
  | .error _ => none

/-- The opcode byte of each instruction (R97). -/
def Instr.opcode : Instr → Byte
  | .ldaImm _ => 0xA9#8
  | .ldaZp _ => 0xA5#8
  | .ldaZpX _ => 0xB5#8
  | .ldaAbs _ => 0xAD#8
  | .ldaAbsX _ => 0xBD#8
  | .ldaAbsY _ => 0xB9#8
  | .ldaIndX _ => 0xA1#8
  | .ldaIndY _ => 0xB1#8
  | .ldxImm _ => 0xA2#8
  | .ldxZp _ => 0xA6#8
  | .ldxZpY _ => 0xB6#8
  | .ldxAbs _ => 0xAE#8
  | .ldxAbsY _ => 0xBE#8
  | .ldyImm _ => 0xA0#8
  | .ldyZp _ => 0xA4#8
  | .ldyZpX _ => 0xB4#8
  | .ldyAbs _ => 0xAC#8
  | .ldyAbsX _ => 0xBC#8
  | .staZp _ => 0x85#8
  | .staZpX _ => 0x95#8
  | .staAbs _ => 0x8D#8
  | .staAbsX _ => 0x9D#8
  | .staAbsY _ => 0x99#8
  | .staIndX _ => 0x81#8
  | .staIndY _ => 0x91#8
  | .stxZp _ => 0x86#8
  | .stxZpY _ => 0x96#8
  | .stxAbs _ => 0x8E#8
  | .styZp _ => 0x84#8
  | .styZpX _ => 0x94#8
  | .styAbs _ => 0x8C#8
  | .tax => 0xAA#8
  | .tay => 0xA8#8
  | .txa => 0x8A#8
  | .tya => 0x98#8
  | .tsx => 0xBA#8
  | .txs => 0x9A#8
  | .pha => 0x48#8
  | .php => 0x08#8
  | .pla => 0x68#8
  | .plp => 0x28#8
  | .adcImm _ => 0x69#8
  | .adcZp _ => 0x65#8
  | .adcZpX _ => 0x75#8
  | .adcAbs _ => 0x6D#8
  | .adcAbsX _ => 0x7D#8
  | .adcAbsY _ => 0x79#8
  | .adcIndX _ => 0x61#8
  | .adcIndY _ => 0x71#8
  | .sbcImm _ => 0xE9#8
  | .sbcZp _ => 0xE5#8
  | .sbcZpX _ => 0xF5#8
  | .sbcAbs _ => 0xED#8
  | .sbcAbsX _ => 0xFD#8
  | .sbcAbsY _ => 0xF9#8
  | .sbcIndX _ => 0xE1#8
  | .sbcIndY _ => 0xF1#8
  | .andImm _ => 0x29#8
  | .andZp _ => 0x25#8
  | .andZpX _ => 0x35#8
  | .andAbs _ => 0x2D#8
  | .andAbsX _ => 0x3D#8
  | .andAbsY _ => 0x39#8
  | .andIndX _ => 0x21#8
  | .andIndY _ => 0x31#8
  | .oraImm _ => 0x09#8
  | .oraZp _ => 0x05#8
  | .oraZpX _ => 0x15#8
  | .oraAbs _ => 0x0D#8
  | .oraAbsX _ => 0x1D#8
  | .oraAbsY _ => 0x19#8
  | .oraIndX _ => 0x01#8
  | .oraIndY _ => 0x11#8
  | .eorImm _ => 0x49#8
  | .eorZp _ => 0x45#8
  | .eorZpX _ => 0x55#8
  | .eorAbs _ => 0x4D#8
  | .eorAbsX _ => 0x5D#8
  | .eorAbsY _ => 0x59#8
  | .eorIndX _ => 0x41#8
  | .eorIndY _ => 0x51#8
  | .bitZp _ => 0x24#8
  | .bitAbs _ => 0x2C#8
  | .cmpImm _ => 0xC9#8
  | .cmpZp _ => 0xC5#8
  | .cmpZpX _ => 0xD5#8
  | .cmpAbs _ => 0xCD#8
  | .cmpAbsX _ => 0xDD#8
  | .cmpAbsY _ => 0xD9#8
  | .cmpIndX _ => 0xC1#8
  | .cmpIndY _ => 0xD1#8
  | .cpxImm _ => 0xE0#8
  | .cpxZp _ => 0xE4#8
  | .cpxAbs _ => 0xEC#8
  | .cpyImm _ => 0xC0#8
  | .cpyZp _ => 0xC4#8
  | .cpyAbs _ => 0xCC#8
  | .aslZp _ => 0x06#8
  | .aslZpX _ => 0x16#8
  | .aslAbs _ => 0x0E#8
  | .aslAbsX _ => 0x1E#8
  | .aslAcc => 0x0A#8
  | .lsrZp _ => 0x46#8
  | .lsrZpX _ => 0x56#8
  | .lsrAbs _ => 0x4E#8
  | .lsrAbsX _ => 0x5E#8
  | .lsrAcc => 0x4A#8
  | .rolZp _ => 0x26#8
  | .rolZpX _ => 0x36#8
  | .rolAbs _ => 0x2E#8
  | .rolAbsX _ => 0x3E#8
  | .rolAcc => 0x2A#8
  | .rorZp _ => 0x66#8
  | .rorZpX _ => 0x76#8
  | .rorAbs _ => 0x6E#8
  | .rorAbsX _ => 0x7E#8
  | .rorAcc => 0x6A#8
  | .incZp _ => 0xE6#8
  | .incZpX _ => 0xF6#8
  | .incAbs _ => 0xEE#8
  | .incAbsX _ => 0xFE#8
  | .decZp _ => 0xC6#8
  | .decZpX _ => 0xD6#8
  | .decAbs _ => 0xCE#8
  | .decAbsX _ => 0xDE#8
  | .inx => 0xE8#8
  | .iny => 0xC8#8
  | .dex => 0xCA#8
  | .dey => 0x88#8
  | .bcc _ => 0x90#8
  | .bcs _ => 0xB0#8
  | .beq _ => 0xF0#8
  | .bmi _ => 0x30#8
  | .bne _ => 0xD0#8
  | .bpl _ => 0x10#8
  | .bvc _ => 0x50#8
  | .bvs _ => 0x70#8
  | .jmpAbs _ => 0x4C#8
  | .jmpInd _ => 0x6C#8
  | .jsr _ => 0x20#8
  | .rts => 0x60#8
  | .rti => 0x40#8
  | .brk => 0x00#8
  | .clc => 0x18#8
  | .cld => 0xD8#8
  | .cli => 0x58#8
  | .clv => 0xB8#8
  | .sec => 0x38#8
  | .sed => 0xF8#8
  | .sei => 0x78#8
  | .nop => 0xEA#8

/-- The operand byte or bytes of a memory operand, low byte first (R92, R93). -/
def MemArg.bytes : MemArg → List Byte
  | .zp b | .zpX b | .zpY b | .indX b | .indY b => [b]
  | .abs w | .absX w | .absY w => [lowByte w, highByte w]

/-- The operand bytes of a form (R91 to R93, R95). -/
def Form.bytes : Form → List Byte
  | .read _ (.imm v) => [v]
  | .read _ (.mem m) => m.bytes
  | .write _ m => m.bytes
  | .modify _ .acc => []
  | .modify _ (.mem m) => m.bytes
  | .branch _ d => [d]
  | .jump (.abs w) => [lowByte w, highByte w]
  | .jump (.ind w) => [lowByte w, highByte w]
  | .call w => [lowByte w, highByte w]
  | .implied _ => []

/-- The bytes of an instruction: its opcode, then its operand bytes (R90). -/
def encode (i : Instr) : List Byte := i.opcode :: i.form.bytes

/-- The length of an instruction in bytes (R94). -/
def Instr.length (i : Instr) : Nat := i.form.mode.length

end Sys2Proof
end

