-- ==== Sys2Proof/Machine/State.lean ====
section
/-! DEFINITION. The state of the core as plain data (spec/10_state.md), the storage and collaborator interface behind its
bus (spec/20_memory.md), the fault record (spec/60_exceptions.md R305), the reasons a step can stop, and the state after
power-on with no cartridge contents loaded. -/

namespace Sys2Proof.Machine

/-- Status: seven independent stored flags (R28). -/
structure Flags where
  n : Bool
  v : Bool
  b : Bool
  d : Bool
  i : Bool
  z : Bool
  c : Bool
  deriving DecidableEq, Repr

/-- The Register File (R20). -/
structure Regs where
  a : Byte
  x : Byte
  y : Byte
  sp : Byte
  pc : Word
  p : Flags
  deriving DecidableEq, Repr

/-- The kind of a bus access, for fault records (spec/60_exceptions.md R300, R305). -/
inductive AccessKind where
  | fetch | read | write
  deriving DecidableEq, Repr

/-- The three kinds of fault (spec/60_exceptions.md R300 to R302). -/
inductive FaultKind where
  | unmappedAddress | illegalOpcode | mapperFault
  deriving DecidableEq, Repr

/-- The mapper attached to cartridge space (spec/00_scope.md R7): the reference mapper of spec/20_memory.md R60, or some
other mapper, of which only the read and write contract of R59 is known. -/
inductive Mapper where
  | reference | other
  deriving DecidableEq, Repr

/-- A completed call to a collaborator whose state is not in `State` (spec/20_memory.md R55, R56, R59). -/
inductive CollaboratorCall where
  | ppuRead (r : BitVec 3) (v : Byte)
  | ppuWrite (r : BitVec 3) (v : Byte)
  | apuRead (r : Fin 24) (v : Byte)
  | apuWrite (r : Fin 24) (v : Byte)
  | mapperRead (a : Word) (v : Byte)
  | mapperWrite (a : Word) (v : Byte)
  deriving DecidableEq, Repr

/-- Bytes by index, in the canonical form of `Memory.wf`: indexes strictly rising, and no entry equal to what an unlisted
index reads as. -/
abbrev Memory := List Host.Cell

/-- What the bus routes to: work RAM by its 11-bit index (R34, spec/20_memory.md R54), the reference mapper's program bank
by index 0 to 0x7FFF (R60), and the mapper attached. `calls` (newest first, log 4) and `draws` (log 3) are the model's
own: the calls delivered to the collaborators, and the number of free values taken from them. -/
structure Bus where
  ram : Memory
  prg : Memory
  mapper : Mapper
  calls : List CollaboratorCall
  draws : Nat
  deriving DecidableEq, Repr

/-- The register snapshot of a fault record or a diagnostic record: `{PC, SP, A, X, Y, Serialize(P)}` (R42,
spec/60_exceptions.md R305). -/
structure RegSnapshot where
  pc : Word
  sp : Byte
  a : Byte
  x : Byte
  y : Byte
  status : Byte
  deriving DecidableEq, Repr

/-- The fault record (spec/60_exceptions.md R305). Its 8-bit code is `FaultKind.code` of its kind. -/
structure FaultRecord where
  kind : FaultKind
  access : AccessKind
  address : Word
  opcode : Option Byte
  opaddr : Word
  snapshot : RegSnapshot
  detail : Option Nat
  deriving DecidableEq, Repr

/-- The diagnostic record of a completed step (R42). `opcode` is none for an interrupt entry (spec/60_exceptions.md
R312). -/
structure Diagnostics where
  snapshot : RegSnapshot
  opaddr : Word
  opcode : Option Byte
  deriving DecidableEq, Repr

/-- The machine at an instruction boundary. `pullZeroesSlot` and `irqLine` are parameters of spec/00_scope.md R7 (log 6,
log 7), `nmiPending` is the latch of R37, `fault` the latch of R36, `diag` the last diagnostic record (R42, log 10). -/
structure State where
  regs : Regs
  bus : Bus
  pullZeroesSlot : Bool
  irqLine : Bool
  nmiPending : Bool
  fault : Option FaultRecord
  diag : Option Diagnostics
  deriving DecidableEq, Repr

/-- Why a step ends with a fault. Each carries the fault record reported to the caller (spec/60_exceptions.md R305) and the
faulted state the core is left in (R303, R304): registers as at the start of the step, bus accesses already made kept,
the latch set. A step in the faulted state answers the same record again (log 8). All three are the spec's own faults. -/
inductive Fault where
  /-- A bus access in 0x4018 to 0x7FFF (R300): raised by fetches, pointer reads, data reads and data writes. Safe: the
  spec's own stop. -/
  | unmappedAddress (r : FaultRecord) (after : State)
  /-- The opcode fetched is one of the 105 undocumented bytes (R301): raised by the decode of a step. Safe: the spec's own
  stop. -/
  | illegalOpcode (r : FaultRecord) (after : State)
  /-- The attached mapper reported a failure (R302): raised by accesses in 0x8000 to 0xFFFF with a mapper other than the
  reference mapper. Safe: whether it happens is a free value of Config. -/
  | mapperFault (r : FaultRecord) (after : State)
  deriving DecidableEq, Repr

/-- Why an instruction has no meaning in the model. -/
inductive Refusal where
  /-- An instruction not modelled yet, by its mnemonic: raised by a refused arm of `exec`. Safe: the model stops where
  the hardware goes on. No arm raises it. -/
  | notModelled (mnemonic : String)
  deriving DecidableEq, Repr

/-- The state after `power()` (R40, spec/70_reset_and_hazards.md R340) with the reference mapper and nothing loaded into its
program bank: registers and flags zero, SP = 0xFD, RAM all 0xFF (nothing listed), PC the word at the reset vector, whose
two unloaded bytes read 0xFF (log 1). The parameters are at their defaults (spec/00_scope.md R7). -/
def State.reset : State where
  regs :=
    { a := 0x00#8, x := 0x00#8, y := 0x00#8, sp := 0xFD#8, pc := 0xFFFF#16
      p := { n := false, v := false, b := false, d := false, i := false, z := false, c := false } }
  bus := { ram := [], prg := [], mapper := .reference, calls := [], draws := 0 }
  pullZeroesSlot := false
  irqLine := false
  nmiPending := false
  fault := none
  diag := none

end Sys2Proof.Machine
end

