-- ==== Sys2Proof/Machine/Flags.lean ====
section
/-! DEFINITION. The status word and every flag computation (spec/10_state.md R31, R32; spec/43_arithmetic_logic.md;
spec/44_shift_incdec.md). -/

namespace Sys2Proof.Machine

/-- `Serialize(P)`: bit 7 = N, 6 = V, 5 = 1, 4 = B, 3 = D, 2 = I, 1 = Z, 0 = C (R31). -/
def Flags.serialize (p : Flags) : Byte :=
  BitVec.ofBool p.n ++ BitVec.ofBool p.v ++ 1#1 ++ BitVec.ofBool p.b ++
    BitVec.ofBool p.d ++ BitVec.ofBool p.i ++ BitVec.ofBool p.z ++ BitVec.ofBool p.c

/-- `Deserialize(b)`: every flag from its bit, bit 5 ignored (R32). -/
def Flags.deserialize (b : Byte) : Flags where
  n := b[7]
  v := b[6]
  b := b[4]
  d := b[3]
  i := b[2]
  z := b[1]
  c := b[0]

/-- `setNZ(v)` (spec/00_scope.md R11). -/
def Flags.setNZ (p : Flags) (v : Byte) : Flags := { p with n := v[7], z := v == 0x00#8 }

/-- `AddWithCarry`: the 9-bit sum, its byte and its flags C, V, N, Z (spec/43_arithmetic_logic.md R200). D has no effect
(R201). -/
def addWithCarry (a b : Byte) (p : Flags) : Byte × Flags :=
  let sum9 : BitVec 9 := a.setWidth 9 + b.setWidth 9 + (BitVec.ofBool p.c).setWidth 9
  let r : Byte := sum9.setWidth 8
  (r, { p with c := sum9[8], v := ((a ^^^ r) &&& (b ^^^ r))[7], n := r[7], z := r == 0x00#8 })

/-- `Compare`: C from the unsigned comparison, Z from equality, N from the difference (spec/43_arithmetic_logic.md R208). -/
def compareFlags (r m : Byte) (p : Flags) : Flags :=
  let t : Byte := r - m
  { p with c := decide (m.toNat ≤ r.toNat), z := r == m, n := t[7] }

/-- The flags of BIT: Z from `A & m`, N and V from the operand (spec/43_arithmetic_logic.md R207). -/
def bitFlags (a m : Byte) (p : Flags) : Flags :=
  { p with z := (a &&& m) == 0x00#8, n := m[7], v := m[6] }

/-- ASL: the result byte and the flags (spec/44_shift_incdec.md R231). -/
def shiftLeft (v : Byte) (p : Flags) : Byte × Flags :=
  let r : Byte := v <<< 1
  (r, { p with c := v[7] }.setNZ r)

/-- LSR: the result byte and the flags (spec/44_shift_incdec.md R232). -/
def shiftRight (v : Byte) (p : Flags) : Byte × Flags :=
  let r : Byte := v >>> 1
  (r, { p with c := v[0] }.setNZ r)

/-- ROL: the result byte and the flags (spec/44_shift_incdec.md R233). -/
def rotateLeft (v : Byte) (p : Flags) : Byte × Flags :=
  let r : Byte := (v <<< 1) ||| (BitVec.ofBool p.c).setWidth 8
  (r, { p with c := v[7] }.setNZ r)

/-- ROR: the result byte and the flags (spec/44_shift_incdec.md R234). -/
def rotateRight (v : Byte) (p : Flags) : Byte × Flags :=
  let r : Byte := (v >>> 1) ||| ((BitVec.ofBool p.c).setWidth 8 <<< 7)
  (r, { p with c := v[0] }.setNZ r)

/-- INC: the result byte and the flags (spec/44_shift_incdec.md R235). -/
def increment (v : Byte) (p : Flags) : Byte × Flags :=
  let r : Byte := v + 1#8
  (r, p.setNZ r)

/-- DEC: the result byte and the flags (spec/44_shift_incdec.md R236). -/
def decrement (v : Byte) (p : Flags) : Byte × Flags :=
  let r : Byte := v - 1#8
  (r, p.setNZ r)

end Sys2Proof.Machine
end

