-- ==== Sys2Proof/Machine/Memory.lean ====
section
/-! DEFINITION. Byte memory as a list of (index, byte) pairs in one canonical form: indexes strictly rising, no entry equal
to what an unlisted index reads as. Work RAM (spec/10_state.md R34) and the reference mapper's program bank
(spec/20_memory.md R60) are two such memories. -/

namespace Sys2Proof.Machine

/-- What an index nothing has written reads as. For work RAM it is the fill of `power()`, "the erased-EEPROM convention"
(spec/70_reset_and_hazards.md R341). For the program bank it is a DESIGN CHOICE (log 1). -/
def Memory.unlisted : Byte := 0xFF#8

/-- The number of bytes of work RAM (spec/00_scope.md R6). -/
def Memory.ramSize : Nat := 0x0800

/-- The number of bytes of the reference mapper's program bank (spec/00_scope.md R6). -/
def Memory.prgSize : Nat := 0x8000

/-- The byte at an index. -/
def Memory.read : Memory → Nat → Byte
  | [], _ => Memory.unlisted
  | (k, v) :: rest, a => if a = k then v else Memory.read rest a

/-- Put a byte at an index. Writing what an unlisted index reads as removes the entry. -/
def Memory.write : Memory → Nat → Byte → Memory
  | [], a, v => if v = Memory.unlisted then [] else [(a, v)]
  | (k, w) :: rest, a, v =>
    if a < k then (if v = Memory.unlisted then (k, w) :: rest else (a, v) :: (k, w) :: rest)
    else if a = k then (if v = Memory.unlisted then rest else (a, v) :: rest)
    else (k, w) :: Memory.write rest a v

/-- The canonical form from an index on: indexes at least `low`, strictly rising, no entry equal to `Memory.unlisted`. -/
def Memory.wfFrom (low : Nat) : Memory → Bool
  | [] => true
  | (k, v) :: rest => decide (low ≤ k) && v != Memory.unlisted && Memory.wfFrom (k + 1) rest

/-- The canonical form of a memory of `size` bytes. -/
def Memory.wf (size : Nat) (m : Memory) : Bool :=
  Memory.wfFrom 0 m && m.all fun cell => decide (cell.1 < size)

/-- A bus whose two memories are in canonical form. -/
def Bus.wf (b : Bus) : Bool := Memory.wf Memory.ramSize b.ram && Memory.wf Memory.prgSize b.prg

/-- The invariant of the state: its memories are in canonical form, with every index in range. -/
def State.wf (s : State) : Bool := s.bus.wf

end Sys2Proof.Machine
end

