-- ==== Sys2Proof/Machine/Ops.lean ====
section
/-! DEFINITION. The named operations over registers and memory: the bus (spec/20_memory.md §1), the stack unit (§4), what a
fault does to a step (spec/60_exceptions.md §1), and taking an interrupt and returning from one (§2). -/

namespace Sys2Proof.Machine

/-- A fault on its way to the caller: its kind, the access that failed, its address, and the mapper's detail
(spec/60_exceptions.md R300 to R302). -/
structure Raised where
  kind : FaultKind
  access : AccessKind
  address : Word
  detail : Option Nat
  deriving DecidableEq, Repr

/-- The answer of an operation inside a step: a value, or a fault; and the state at that point. -/
inductive Res (α : Type) where
  | ok (v : α) (s : State)
  | fault (e : Raised) (s : State)
  deriving DecidableEq, Repr

/-- Statements are performed in order, and none after a fault (spec/00_scope.md R12). -/
def Res.bind {α β : Type} (r : Res α) (f : α → State → Res β) : Res β :=
  match r with
  | .ok v s => f v s
  | .fault e s => .fault e s

/-! ### Updates of the state -/

def State.withRegs (s : State) (r : Regs) : State := { s with regs := r }
def State.withBus (s : State) (b : Bus) : State := { s with bus := b }
def State.withPc (s : State) (w : Word) : State := { s with regs := { s.regs with pc := w } }
def State.withSp (s : State) (b : Byte) : State := { s with regs := { s.regs with sp := b } }
def State.withFlags (s : State) (p : Flags) : State := { s with regs := { s.regs with p := p } }
def State.withFault (s : State) (r : Option FaultRecord) : State := { s with fault := r }
def State.withDiag (s : State) (d : Option Diagnostics) : State := { s with diag := d }
def State.withNmi (s : State) (b : Bool) : State := { s with nmiPending := b }
def State.withIrq (s : State) (b : Bool) : State := { s with irqLine := b }
def Bus.withRam (b : Bus) (m : Memory) : Bus := { b with ram := m }
def Bus.withPrg (b : Bus) (m : Memory) : Bus := { b with prg := m }
def Bus.draw (b : Bus) : Bus := { b with draws := b.draws + 1 }
def Bus.log (b : Bus) (c : CollaboratorCall) : Bus := { b with calls := c :: b.calls }

/-- PC advances past `n` instruction bytes, mod 2^16 (spec/10_state.md R25, R26). -/
def State.advance (s : State) (n : Nat) : State := s.withPc (s.regs.pc + BitVec.ofNat 16 n)

/-! ### The bus -/

/-- The five cases of the bus decode, with the local index passed on (R51). -/
inductive BusTarget where
  | workRam (i : BitVec 11)
  | ppuRegs (r : BitVec 3)
  | apuRegs (r : Fin 24)
  | unmapped
  | cartridge (a : Word)
  deriving DecidableEq, Repr

/-- The bus decode, a pure function of the address (R51). -/
def decodeAddress (a : Word) : BusTarget :=
  if a.toNat < 0x2000 then .workRam (BitVec.ofNat 11 (a.toNat % 0x0800))
  else if a.toNat < 0x4000 then .ppuRegs (BitVec.ofNat 3 ((a.toNat - 0x2000) % 8))
  else if a.toNat < 0x4018 then .apuRegs (Fin.ofNat 24 (a.toNat - 0x4000))
  else if a.toNat < 0x8000 then .unmapped
  else .cartridge a

/-- The index of a cartridge address in the reference mapper's program bank (R60). -/
def prgIndex (a : Word) : Nat := a.toNat - 0x8000

/-- `Mapper.read(a)` (R59, R60). Another mapper's answer is a free value (log 5). -/
def mapperRead (k : AccessKind) (a : Word) (s : State) : Res Byte :=
  match s.bus.mapper with
  | .reference => .ok (s.bus.prg.read (prgIndex a)) s
  | .other =>
    match Config.otherMapperRead s.bus.draws a with
    | .ok v => .ok v (s.withBus (s.bus.draw.log (.mapperRead a v)))
    | .error d => .fault ⟨.mapperFault, k, a, some d⟩ (s.withBus s.bus.draw)

/-- `Mapper.write(a, v)` (R59, R60). The reference mapper ignores it. -/
def mapperWrite (a : Word) (v : Byte) (s : State) : Res Unit :=
  match s.bus.mapper with
  | .reference => .ok () s
  | .other =>
    match Config.otherMapperWrite s.bus.draws a v with
    | .ok _ => .ok () (s.withBus (s.bus.draw.log (.mapperWrite a v)))
    | .error d => .fault ⟨.mapperFault, .write, a, some d⟩ (s.withBus s.bus.draw)

/-- `PpuRegs.readRegister(r)`: a free value, and the device sees the read (R55, R61). -/
def ppuRead (r : BitVec 3) (s : State) : Res Byte :=
  let v := Config.ppuReadRegister s.bus.draws r
  .ok v (s.withBus (s.bus.draw.log (.ppuRead r v)))

/-- `ApuRegs.readRegister(r)`: a free value, and the device sees the read (R56, R61). -/
def apuRead (r : Fin 24) (s : State) : Res Byte :=
  let v := Config.apuReadRegister s.bus.draws r
  .ok v (s.withBus (s.bus.draw.log (.apuRead r v)))

/-- `Read(a)`, with the access kind of its fault record (R52). -/
def readByte (k : AccessKind) (a : Word) (s : State) : Res Byte :=
  match decodeAddress a with
  | .workRam i => .ok (s.bus.ram.read i.toNat) s
  | .ppuRegs r => ppuRead r s
  | .apuRegs r => apuRead r s
  | .unmapped => .fault ⟨.unmappedAddress, k, a, none⟩ s
  | .cartridge c => mapperRead k c s

/-- `Write(a, v)` (R53). Device writes are delivered unchanged and in order (R55, R56, R62). -/
def writeByte (a : Word) (v : Byte) (s : State) : Res Unit :=
  match decodeAddress a with
  | .workRam i => .ok () (s.withBus (s.bus.withRam (s.bus.ram.write i.toNat v)))
  | .ppuRegs r => .ok () (s.withBus (s.bus.log (.ppuWrite r v)))
  | .apuRegs r => .ok () (s.withBus (s.bus.log (.apuWrite r v)))
  | .unmapped => .fault ⟨.unmappedAddress, .write, a, none⟩ s
  | .cartridge c => mapperWrite c v s

/-- The byte stored at an address, without a bus access: work RAM, and the program bank of the reference mapper. No byte
is stored at any other address. -/
def State.peek (s : State) (a : Word) : Option Byte :=
  match decodeAddress a with
  | .workRam i => some (s.bus.ram.read i.toNat)
  | .cartridge c =>
    match s.bus.mapper with
    | .reference => some (s.bus.prg.read (prgIndex c))
    | .other => none
  | .ppuRegs _ | .apuRegs _ | .unmapped => none

/-- Put a byte where `peek` reads one, from outside the machine: the cartridge loader's act (R60, log 2). -/
def State.poke (s : State) (a : Word) (v : Byte) : State :=
  match decodeAddress a with
  | .workRam i => s.withBus (s.bus.withRam (s.bus.ram.write i.toNat v))
  | .cartridge c => s.withBus (s.bus.withPrg (s.bus.prg.write (prgIndex c) v))
  | .ppuRegs _ | .apuRegs _ | .unmapped => s

/-! ### The stack unit -/

/-- The address of the next free stack byte, `0x0100 + SP` (spec/10_state.md R24). -/
def stackAddress (sp : Byte) : Word := 0x0100#16 + sp.setWidth 16

/-- `push8` (R70). -/
def push8 (b : Byte) (s : State) : Res Unit :=
  (writeByte (stackAddress s.regs.sp) b s).bind fun _ s1 =>
    .ok () (s1.withSp (s1.regs.sp - 1#8))

/-- `push16`: the high byte first (R71). -/
def push16 (w : Word) (s : State) : Res Unit :=
  (push8 (highByte w) s).bind fun _ s1 => push8 (lowByte w) s1

/-- `pull8`, with the parameter `pullZeroesSlot` (R72). -/
def pull8 (s : State) : Res Byte :=
  let s1 := s.withSp (s.regs.sp + 1#8)
  (readByte .read (stackAddress s1.regs.sp) s1).bind fun b s2 =>
    if s2.pullZeroesSlot then
      (writeByte (stackAddress s2.regs.sp) 0x00#8 s2).bind fun _ s3 => .ok b s3
    else .ok b s2

/-- `pull16`: the low byte first (R73). -/
def pull16 (s : State) : Res Word :=
  (pull8 s).bind fun lo s1 => (pull8 s1).bind fun hi s2 => .ok (joinBytes hi lo) s2

/-! ### Faults -/

/-- The fault codes (spec/60_exceptions.md R300 to R302). -/
def FaultKind.code : FaultKind → Byte
  | .unmappedAddress => 1#8
  | .illegalOpcode => 2#8
  | .mapperFault => 3#8

/-- The register snapshot `{PC, SP, A, X, Y, Serialize(P)}` (spec/10_state.md R42). -/
def Regs.snapshot (r : Regs) : RegSnapshot :=
  { pc := r.pc, sp := r.sp, a := r.a, x := r.x, y := r.y, status := r.p.serialize }

/-- The fault record of a fault raised in a step that starts with the registers `r` (spec/60_exceptions.md R305). -/
def faultRecord (r : Regs) (opcode : Option Byte) (e : Raised) : FaultRecord :=
  { kind := e.kind, access := e.access, address := e.address, opcode := opcode, opaddr := r.pc,
    snapshot := r.snapshot, detail := e.detail }

/-- The fault a record reports, by its kind, with the faulted state. -/
def Fault.report (r : FaultRecord) (after : State) : Fault :=
  match r.kind with
  | .unmappedAddress => .unmappedAddress r after
  | .illegalOpcode => .illegalOpcode r after
  | .mapperFault => .mapperFault r after

/-- The faulted state of a step that starts in `s` and raises `e` in `s1`: the registers of the start, everything else as
the accesses already made left it, the latch set (spec/60_exceptions.md R303, R304). -/
def faultedState (s : State) (opcode : Option Byte) (e : Raised) (s1 : State) : State :=
  (s1.withRegs s.regs).withFault (some (faultRecord s.regs opcode e))

/-- End a step that starts in `s` with the fault `e`, raised in `s1` (spec/60_exceptions.md R303 to R305). -/
def endWithFault (s : State) (opcode : Option Byte) (e : Raised) (s1 : State) : Host.Outcome State Fault Refusal :=
  .fault (Fault.report (faultRecord s.regs opcode e) (faultedState s opcode e s1))

/-- The outcome of an instruction that starts in `s`: its last state, or its fault. -/
def complete (opcode : Byte) (s : State) (r : Res Unit) : Host.Outcome State Fault Refusal :=
  match r with
  | .ok _ s1 => .next s1
  | .fault e s1 => endWithFault s (some opcode) e s1

/-- Record the diagnostic snapshot of a completed step (spec/10_state.md R42). A faulted step reports its record
instead. -/
def recordDiagnostics (opaddr : Word) (opcode : Option Byte) (o : Host.Outcome State Fault Refusal) :
    Host.Outcome State Fault Refusal :=
  match o with
  | .next s => .next (s.withDiag (some { snapshot := s.regs.snapshot, opaddr := opaddr, opcode := opcode }))
  | .fault f => .fault f
  | .refused r => .refused r

/-! ### Interrupts -/

/-- The IRQ/BRK vector (spec/60_exceptions.md R313). -/
def irqVector : Word := 0xFFFE#16

/-- The NMI vector (spec/60_exceptions.md R313). -/
def nmiVector : Word := 0xFFFA#16

/-- The reset vector (spec/60_exceptions.md R313). -/
def resetVector : Word := 0xFFFC#16

/-- Read the word at a vector, low byte first (spec/60_exceptions.md R313). -/
def readVector (v : Word) (s : State) : Res Word :=
  (readByte .read v s).bind fun lo s1 =>
    (readByte .read (v + 1#16) s1).bind fun hi s2 => .ok (joinBytes hi lo) s2

/-- Transfer control through a vector: push the return address, push the status byte given, set I, load PC from the vector.
Shared by BRK (spec/45_control_flow.md R265) and by interrupt entry (spec/60_exceptions.md R312). D is unchanged. -/
def takeInterrupt (vector ret : Word) (status : Byte) (s : State) : Res Unit :=
  (push16 ret s).bind fun _ s1 =>
    (push8 status s1).bind fun _ s2 =>
      (readVector vector (s2.withFlags { s2.regs.p with i := true })).bind fun target s3 =>
        .ok () (s3.withPc target)

/-- Return from an interrupt: pull the status, then the exact return address (spec/45_control_flow.md R264). -/
def returnFromInterrupt (s : State) : Res Unit :=
  (pull8 s).bind fun b s1 =>
    (pull16 (s1.withFlags (Flags.deserialize b))).bind fun w s2 => .ok () (s2.withPc w)

/-- The two interrupt inputs (spec/60_exceptions.md R308). -/
inductive InterruptKind where
  | nmi | irq
  deriving DecidableEq, Repr

/-- The vector of each interrupt input (spec/60_exceptions.md R308, R313). -/
def InterruptKind.vector : InterruptKind → Word
  | .nmi => nmiVector
  | .irq => irqVector

/-- The interrupt taken at this boundary: a pending NMI first, then an IRQ if I = 0 (spec/60_exceptions.md R311, R314). -/
def pendingInterrupt (s : State) : Option InterruptKind :=
  if s.nmiPending then some .nmi
  else if s.irqLine && !s.regs.p.i then some .irq
  else none

/-- Clear the NMI latch when the NMI is the one serviced (spec/60_exceptions.md R310, R312). -/
def acknowledge (k : InterruptKind) (s : State) : State :=
  match k with
  | .nmi => s.withNmi false
  | .irq => s

/-- Interrupt entry, one whole step that executes no instruction (spec/60_exceptions.md R312). The pushed status has bit 4
= 0 and the stored B is unchanged. -/
def interruptEntry (k : InterruptKind) (s : State) : Host.Outcome State Fault Refusal :=
  match takeInterrupt k.vector s.regs.pc (s.regs.p.serialize &&& 0xEF#8) (acknowledge k s) with
  | .ok _ s1 => recordDiagnostics s.regs.pc none (.next s1)
  | .fault e s1 => endWithFault s none e s1

end Sys2Proof.Machine
end

