-- ==== Sys2Proof/Machine/Operands.lean ====
section
/-! DEFINITION. The addressing-mode resolver and the operand helpers (spec/41_addressing_modes.md), and one shared operation
for each class of instruction (R154). The operand bytes are already fetched (they stand in the instruction); PC has
been advanced past them when a mode is resolved (R141). -/

namespace Sys2Proof.Machine

/-- `0x00:b`, a zero-page address (R143). -/
def zeroPage (b : Byte) : Word := joinBytes 0x00#8 b

/-- `sext_16(d)` (spec/00_scope.md R9). -/
def signExtend16 (d : Byte) : Word := d.signExtend 16

/-- The word at a zero-page pointer, whose second byte wraps within the zero page (R148, R149). -/
def readZeroPageWord (p : Byte) (s : State) : Res Word :=
  (readByte .read (zeroPage p) s).bind fun tl s1 =>
    (readByte .read (zeroPage (p + 1#8)) s1).bind fun th s2 => .ok (joinBytes th tl) s2

/-- The effective address of a memory operand (R143 to R146, R148, R149). -/
def effectiveAddress (m : MemArg) (s : State) : Res Word :=
  match m with
  | .zp b => .ok (zeroPage b) s
  | .zpX b => .ok (zeroPage (b + s.regs.x)) s
  | .zpY b => .ok (zeroPage (b + s.regs.y)) s
  | .abs w => .ok w s
  | .absX w => .ok (w + s.regs.x.setWidth 16) s
  | .absY w => .ok (w + s.regs.y.setWidth 16) s
  | .indX b => readZeroPageWord (b + s.regs.x) s
  | .indY b => (readZeroPageWord b s).bind fun w s1 => .ok (w + s1.regs.y.setWidth 16) s1

/-- The target of JMP: the operand, or the word at the pointer, whose second byte is read from the pointer's own page
(R145, R147). -/
def jumpTarget (t : JumpArg) (s : State) : Res Word :=
  match t with
  | .abs w => .ok w s
  | .ind p =>
    (readByte .read p s).bind fun tl s1 =>
      (readByte .read (joinBytes (highByte p) (lowByte p + 1#8)) s1).bind fun th s2 => .ok (joinBytes th tl) s2

/-- The target of a branch, from PC past the offset byte (R150). -/
def branchTarget (d : Byte) (s : State) : Word := s.regs.pc + signExtend16 d

/-- `load(operand)` of a read operand (R142, R153). -/
def loadRead (src : ReadArg) (s : State) : Res Byte :=
  match src with
  | .imm v => .ok v s
  | .mem m => (effectiveAddress m s).bind fun ea s1 => readByte .read ea s1

/-- An instruction that loads its operand: `f` gives the registers from the operand's value (R123, R153). -/
def readInstruction (opcode : Byte) (src : ReadArg) (f : Byte → Regs → Regs) (s : State) :
    Host.Outcome State Fault Refusal :=
  complete opcode s <|
    (loadRead src (s.advance src.mode.length)).bind fun v s1 => .ok () (s1.withRegs (f v s1.regs))

/-- An instruction that stores a register, with one bus write (R153). -/
def writeInstruction (opcode : Byte) (dst : MemArg) (value : Regs → Byte) (s : State) :
    Host.Outcome State Fault Refusal :=
  complete opcode s <|
    (effectiveAddress dst (s.advance dst.mode.length)).bind fun ea s1 => writeByte ea (value s1.regs) s1

/-- A read-modify-write instruction: one load, one store of the same operand, then the flags (spec/44_shift_incdec.md
R230). -/
def modifyInstruction (opcode : Byte) (tgt : ModifyArg) (f : Byte → Flags → Byte × Flags) (s : State) :
    Host.Outcome State Fault Refusal :=
  complete opcode s <|
    let s0 := s.advance tgt.mode.length
    match tgt with
    | .acc =>
      let (r, p) := f s0.regs.a s0.regs.p
      .ok () (s0.withRegs { s0.regs with a := r, p := p })
    | .mem m =>
      (effectiveAddress m s0).bind fun ea s1 =>
        (readByte .read ea s1).bind fun v s2 =>
          let (r, p) := f v s2.regs.p
          (writeByte ea r s2).bind fun _ s3 => .ok () (s3.withFlags p)

/-- An Implied instruction that changes registers only (R151). It cannot fault. -/
def registerInstruction (f : Regs → Regs) (s : State) : Host.Outcome State Fault Refusal :=
  let s0 := s.advance Mode.impl.length
  .next (s0.withRegs (f s0.regs))

/-- An Implied instruction that uses the stack or a vector (R151). -/
def impliedInstruction (opcode : Byte) (f : State → Res Unit) (s : State) : Host.Outcome State Fault Refusal :=
  complete opcode s (f (s.advance Mode.impl.length))

/-- A branch: PC past the offset byte, or the target when the condition holds (spec/45_control_flow.md R250). -/
def branchInstruction (cond : Flags → Bool) (d : Byte) (s : State) : Host.Outcome State Fault Refusal :=
  let s0 := s.advance Mode.rel.length
  .next (if cond s0.regs.p then s0.withPc (branchTarget d s0) else s0)

end Sys2Proof.Machine
end

