-- ==== Sys2Proof/Machine/Arithmetic.lean ====
section
/-! DEFINITION. Addition, subtraction, logic, bit test and compare (spec/43_arithmetic_logic.md). One meaning for each row of the opcode table, over the
shared operations of Operands.lean. -/

namespace Sys2Proof.Machine

/-- ADC: `A <- AddWithCarry(A, m, C)` (R202). -/
def addToA (v : Byte) (r : Regs) : Regs :=
  let (s, p) := addWithCarry r.a v r.p
  { r with a := s, p := p }

def execAdcImm (v : Byte) (s : State) : Host.Outcome State Fault Refusal :=
  readInstruction 0x69#8 (.imm v) addToA s

def execAdcZp (b : Byte) (s : State) : Host.Outcome State Fault Refusal :=
  readInstruction 0x65#8 (.mem (.zp b)) addToA s

def execAdcZpX (b : Byte) (s : State) : Host.Outcome State Fault Refusal :=
  readInstruction 0x75#8 (.mem (.zpX b)) addToA s

def execAdcAbs (w : Word) (s : State) : Host.Outcome State Fault Refusal :=
  readInstruction 0x6D#8 (.mem (.abs w)) addToA s

def execAdcAbsX (w : Word) (s : State) : Host.Outcome State Fault Refusal :=
  readInstruction 0x7D#8 (.mem (.absX w)) addToA s

def execAdcAbsY (w : Word) (s : State) : Host.Outcome State Fault Refusal :=
  readInstruction 0x79#8 (.mem (.absY w)) addToA s

def execAdcIndX (b : Byte) (s : State) : Host.Outcome State Fault Refusal :=
  readInstruction 0x61#8 (.mem (.indX b)) addToA s

def execAdcIndY (b : Byte) (s : State) : Host.Outcome State Fault Refusal :=
  readInstruction 0x71#8 (.mem (.indY b)) addToA s

/-- SBC: `A <- AddWithCarry(A, ~m, C)` (R203). -/
def subtractFromA (v : Byte) (r : Regs) : Regs :=
  let (s, p) := addWithCarry r.a (~~~v) r.p
  { r with a := s, p := p }

def execSbcImm (v : Byte) (s : State) : Host.Outcome State Fault Refusal :=
  readInstruction 0xE9#8 (.imm v) subtractFromA s

def execSbcZp (b : Byte) (s : State) : Host.Outcome State Fault Refusal :=
  readInstruction 0xE5#8 (.mem (.zp b)) subtractFromA s

def execSbcZpX (b : Byte) (s : State) : Host.Outcome State Fault Refusal :=
  readInstruction 0xF5#8 (.mem (.zpX b)) subtractFromA s

def execSbcAbs (w : Word) (s : State) : Host.Outcome State Fault Refusal :=
  readInstruction 0xED#8 (.mem (.abs w)) subtractFromA s

def execSbcAbsX (w : Word) (s : State) : Host.Outcome State Fault Refusal :=
  readInstruction 0xFD#8 (.mem (.absX w)) subtractFromA s

def execSbcAbsY (w : Word) (s : State) : Host.Outcome State Fault Refusal :=
  readInstruction 0xF9#8 (.mem (.absY w)) subtractFromA s

def execSbcIndX (b : Byte) (s : State) : Host.Outcome State Fault Refusal :=
  readInstruction 0xE1#8 (.mem (.indX b)) subtractFromA s

def execSbcIndY (b : Byte) (s : State) : Host.Outcome State Fault Refusal :=
  readInstruction 0xF1#8 (.mem (.indY b)) subtractFromA s

/-- AND: `A <- A & m; setNZ(A)` (R204). -/
def andIntoA (v : Byte) (r : Regs) : Regs :=
  { r with a := r.a &&& v, p := r.p.setNZ (r.a &&& v) }

def execAndImm (v : Byte) (s : State) : Host.Outcome State Fault Refusal :=
  readInstruction 0x29#8 (.imm v) andIntoA s

def execAndZp (b : Byte) (s : State) : Host.Outcome State Fault Refusal :=
  readInstruction 0x25#8 (.mem (.zp b)) andIntoA s

def execAndZpX (b : Byte) (s : State) : Host.Outcome State Fault Refusal :=
  readInstruction 0x35#8 (.mem (.zpX b)) andIntoA s

def execAndAbs (w : Word) (s : State) : Host.Outcome State Fault Refusal :=
  readInstruction 0x2D#8 (.mem (.abs w)) andIntoA s

def execAndAbsX (w : Word) (s : State) : Host.Outcome State Fault Refusal :=
  readInstruction 0x3D#8 (.mem (.absX w)) andIntoA s

def execAndAbsY (w : Word) (s : State) : Host.Outcome State Fault Refusal :=
  readInstruction 0x39#8 (.mem (.absY w)) andIntoA s

def execAndIndX (b : Byte) (s : State) : Host.Outcome State Fault Refusal :=
  readInstruction 0x21#8 (.mem (.indX b)) andIntoA s

def execAndIndY (b : Byte) (s : State) : Host.Outcome State Fault Refusal :=
  readInstruction 0x31#8 (.mem (.indY b)) andIntoA s

/-- ORA: `A <- A | m; setNZ(A)` (R205). -/
def orIntoA (v : Byte) (r : Regs) : Regs :=
  { r with a := r.a ||| v, p := r.p.setNZ (r.a ||| v) }

def execOraImm (v : Byte) (s : State) : Host.Outcome State Fault Refusal :=
  readInstruction 0x09#8 (.imm v) orIntoA s

def execOraZp (b : Byte) (s : State) : Host.Outcome State Fault Refusal :=
  readInstruction 0x05#8 (.mem (.zp b)) orIntoA s

def execOraZpX (b : Byte) (s : State) : Host.Outcome State Fault Refusal :=
  readInstruction 0x15#8 (.mem (.zpX b)) orIntoA s

def execOraAbs (w : Word) (s : State) : Host.Outcome State Fault Refusal :=
  readInstruction 0x0D#8 (.mem (.abs w)) orIntoA s

def execOraAbsX (w : Word) (s : State) : Host.Outcome State Fault Refusal :=
  readInstruction 0x1D#8 (.mem (.absX w)) orIntoA s

def execOraAbsY (w : Word) (s : State) : Host.Outcome State Fault Refusal :=
  readInstruction 0x19#8 (.mem (.absY w)) orIntoA s

def execOraIndX (b : Byte) (s : State) : Host.Outcome State Fault Refusal :=
  readInstruction 0x01#8 (.mem (.indX b)) orIntoA s

def execOraIndY (b : Byte) (s : State) : Host.Outcome State Fault Refusal :=
  readInstruction 0x11#8 (.mem (.indY b)) orIntoA s

/-- EOR: `A <- A ^ m; setNZ(A)` (R206). -/
def xorIntoA (v : Byte) (r : Regs) : Regs :=
  { r with a := r.a ^^^ v, p := r.p.setNZ (r.a ^^^ v) }

def execEorImm (v : Byte) (s : State) : Host.Outcome State Fault Refusal :=
  readInstruction 0x49#8 (.imm v) xorIntoA s

def execEorZp (b : Byte) (s : State) : Host.Outcome State Fault Refusal :=
  readInstruction 0x45#8 (.mem (.zp b)) xorIntoA s

def execEorZpX (b : Byte) (s : State) : Host.Outcome State Fault Refusal :=
  readInstruction 0x55#8 (.mem (.zpX b)) xorIntoA s

def execEorAbs (w : Word) (s : State) : Host.Outcome State Fault Refusal :=
  readInstruction 0x4D#8 (.mem (.abs w)) xorIntoA s

def execEorAbsX (w : Word) (s : State) : Host.Outcome State Fault Refusal :=
  readInstruction 0x5D#8 (.mem (.absX w)) xorIntoA s

def execEorAbsY (w : Word) (s : State) : Host.Outcome State Fault Refusal :=
  readInstruction 0x59#8 (.mem (.absY w)) xorIntoA s

def execEorIndX (b : Byte) (s : State) : Host.Outcome State Fault Refusal :=
  readInstruction 0x41#8 (.mem (.indX b)) xorIntoA s

def execEorIndY (b : Byte) (s : State) : Host.Outcome State Fault Refusal :=
  readInstruction 0x51#8 (.mem (.indY b)) xorIntoA s

/-- BIT: flags only (R207). -/
def testBits (v : Byte) (r : Regs) : Regs :=
  { r with p := bitFlags r.a v r.p }

def execBitZp (b : Byte) (s : State) : Host.Outcome State Fault Refusal :=
  readInstruction 0x24#8 (.mem (.zp b)) testBits s

def execBitAbs (w : Word) (s : State) : Host.Outcome State Fault Refusal :=
  readInstruction 0x2C#8 (.mem (.abs w)) testBits s

/-- CMP: `Compare(A, m)` (R209). -/
def compareA (v : Byte) (r : Regs) : Regs :=
  { r with p := compareFlags r.a v r.p }

def execCmpImm (v : Byte) (s : State) : Host.Outcome State Fault Refusal :=
  readInstruction 0xC9#8 (.imm v) compareA s

def execCmpZp (b : Byte) (s : State) : Host.Outcome State Fault Refusal :=
  readInstruction 0xC5#8 (.mem (.zp b)) compareA s

def execCmpZpX (b : Byte) (s : State) : Host.Outcome State Fault Refusal :=
  readInstruction 0xD5#8 (.mem (.zpX b)) compareA s

def execCmpAbs (w : Word) (s : State) : Host.Outcome State Fault Refusal :=
  readInstruction 0xCD#8 (.mem (.abs w)) compareA s

def execCmpAbsX (w : Word) (s : State) : Host.Outcome State Fault Refusal :=
  readInstruction 0xDD#8 (.mem (.absX w)) compareA s

def execCmpAbsY (w : Word) (s : State) : Host.Outcome State Fault Refusal :=
  readInstruction 0xD9#8 (.mem (.absY w)) compareA s

def execCmpIndX (b : Byte) (s : State) : Host.Outcome State Fault Refusal :=
  readInstruction 0xC1#8 (.mem (.indX b)) compareA s

def execCmpIndY (b : Byte) (s : State) : Host.Outcome State Fault Refusal :=
  readInstruction 0xD1#8 (.mem (.indY b)) compareA s

/-- CPX: `Compare(X, m)` (R210). -/
def compareX (v : Byte) (r : Regs) : Regs :=
  { r with p := compareFlags r.x v r.p }

def execCpxImm (v : Byte) (s : State) : Host.Outcome State Fault Refusal :=
  readInstruction 0xE0#8 (.imm v) compareX s

def execCpxZp (b : Byte) (s : State) : Host.Outcome State Fault Refusal :=
  readInstruction 0xE4#8 (.mem (.zp b)) compareX s

def execCpxAbs (w : Word) (s : State) : Host.Outcome State Fault Refusal :=
  readInstruction 0xEC#8 (.mem (.abs w)) compareX s

/-- CPY: `Compare(Y, m)` (R211). -/
def compareY (v : Byte) (r : Regs) : Regs :=
  { r with p := compareFlags r.y v r.p }

def execCpyImm (v : Byte) (s : State) : Host.Outcome State Fault Refusal :=
  readInstruction 0xC0#8 (.imm v) compareY s

def execCpyZp (b : Byte) (s : State) : Host.Outcome State Fault Refusal :=
  readInstruction 0xC4#8 (.mem (.zp b)) compareY s

def execCpyAbs (w : Word) (s : State) : Host.Outcome State Fault Refusal :=
  readInstruction 0xCC#8 (.mem (.abs w)) compareY s

end Sys2Proof.Machine
end

