-- ==== Sys2Proof/Machine/Control.lean ====
section
/-! DEFINITION. Branches, jumps, subroutines, returns and BRK (spec/45_control_flow.md). One meaning for each row of the opcode table, over the
shared operations of Operands.lean. -/

namespace Sys2Proof.Machine

/-- BCC: branch when `!p.c` (R251). -/
def execBcc (d : Byte) (s : State) : Host.Outcome State Fault Refusal :=
  branchInstruction (fun p => !p.c) d s

/-- BCS: branch when `p.c` (R252). -/
def execBcs (d : Byte) (s : State) : Host.Outcome State Fault Refusal :=
  branchInstruction (fun p => p.c) d s

/-- BEQ: branch when `p.z` (R253). -/
def execBeq (d : Byte) (s : State) : Host.Outcome State Fault Refusal :=
  branchInstruction (fun p => p.z) d s

/-- BMI: branch when `p.n` (R254). -/
def execBmi (d : Byte) (s : State) : Host.Outcome State Fault Refusal :=
  branchInstruction (fun p => p.n) d s

/-- BNE: branch when `!p.z` (R255). -/
def execBne (d : Byte) (s : State) : Host.Outcome State Fault Refusal :=
  branchInstruction (fun p => !p.z) d s

/-- BPL: branch when `!p.n` (R256). -/
def execBpl (d : Byte) (s : State) : Host.Outcome State Fault Refusal :=
  branchInstruction (fun p => !p.n) d s

/-- BVC: branch when `!p.v` (R257). -/
def execBvc (d : Byte) (s : State) : Host.Outcome State Fault Refusal :=
  branchInstruction (fun p => !p.v) d s

/-- BVS: branch when `p.v` (R258). -/
def execBvs (d : Byte) (s : State) : Host.Outcome State Fault Refusal :=
  branchInstruction (fun p => p.v) d s

/-- JMP in either mode (R260). -/
def jumpInstruction (opcode : Byte) (t : JumpArg) (s : State) : Host.Outcome State Fault Refusal :=
  complete opcode s <|
    (jumpTarget t (s.advance Mode.abs.length)).bind fun ea s1 => .ok () (s1.withPc ea)

/-- JMP Abs: `PC <- ea` (R260). -/
def execJmpAbs (w : Word) (s : State) : Host.Outcome State Fault Refusal :=
  jumpInstruction 0x4C#8 (.abs w) s

/-- JMP Ind: `PC <- ea`, the target read through the pointer with the page-boundary bug (R260,
spec/41_addressing_modes.md R147). -/
def execJmpInd (w : Word) (s : State) : Host.Outcome State Fault Refusal :=
  jumpInstruction 0x6C#8 (.ind w) s

/-- JSR: push `PC - 1 = opaddr + 2`, then `PC <- target` (R262). -/
def execJsr (w : Word) (s : State) : Host.Outcome State Fault Refusal :=
  complete 0x20#8 s <|
    let s0 := s.advance Mode.abs.length
    (push16 (s0.regs.pc - 1#16) s0).bind fun _ s1 => .ok () (s1.withPc w)

/-- RTS: `w <- pull16(); PC <- (w + 1) mod 2^16` (R263). -/
def execRts (s : State) : Host.Outcome State Fault Refusal :=
  impliedInstruction 0x60#8 (fun s0 =>
    (pull16 s0).bind fun w s1 => .ok () (s1.withPc (w + 1#16))) s

/-- RTI: `Deserialize(pull8()); PC <- pull16()` (R264). -/
def execRti (s : State) : Host.Outcome State Fault Refusal :=
  impliedInstruction 0x40#8 (fun s0 =>
    returnFromInterrupt s0) s

/-- BRK: set B, then push `opaddr + 2` and the status, set I, and go through the IRQ/BRK vector. After the opcode PC is
`opaddr + 1`; the padding byte is not read (R265). -/
def execBrk (s : State) : Host.Outcome State Fault Refusal :=
  impliedInstruction 0x00#8 (fun s0 =>
    let s1 := s0.withFlags { s0.regs.p with b := true }
    takeInterrupt irqVector (s1.regs.pc + 1#16) s1.regs.p.serialize s1) s

end Sys2Proof.Machine
end

