-- ==== Sys2Proof/Machine/FlagOps.lean ====
section
/-! DEFINITION. Flag instructions and NOP (spec/46_flags_misc.md). One meaning for each row of the opcode table, over the
shared operations of Operands.lean. -/

namespace Sys2Proof.Machine

/-- CLC: `C <- 0` (R280). -/
def execClc (s : State) : Host.Outcome State Fault Refusal :=
  registerInstruction (fun r => { r with p := { r.p with c := false } }) s

/-- CLD: `D <- 0` (R281). -/
def execCld (s : State) : Host.Outcome State Fault Refusal :=
  registerInstruction (fun r => { r with p := { r.p with d := false } }) s

/-- CLI: `I <- 0` (R282). -/
def execCli (s : State) : Host.Outcome State Fault Refusal :=
  registerInstruction (fun r => { r with p := { r.p with i := false } }) s

/-- CLV: `V <- 0` (R283). -/
def execClv (s : State) : Host.Outcome State Fault Refusal :=
  registerInstruction (fun r => { r with p := { r.p with v := false } }) s

/-- SEC: `C <- 1` (R284). -/
def execSec (s : State) : Host.Outcome State Fault Refusal :=
  registerInstruction (fun r => { r with p := { r.p with c := true } }) s

/-- SED: `D <- 1`. ADC and SBC stay binary (spec/43_arithmetic_logic.md R201) (R285). -/
def execSed (s : State) : Host.Outcome State Fault Refusal :=
  registerInstruction (fun r => { r with p := { r.p with d := true } }) s

/-- SEI: `I <- 1` (R286). -/
def execSei (s : State) : Host.Outcome State Fault Refusal :=
  registerInstruction (fun r => { r with p := { r.p with i := true } }) s

/-- NOP: nothing but PC (R287). -/
def execNop (s : State) : Host.Outcome State Fault Refusal :=
  registerInstruction (fun r => r) s

end Sys2Proof.Machine
end

