-- ==== Sys2Proof/Machine/LoadStore.lean ====
section
/-! DEFINITION. Loads and stores (spec/42_load_store_transfer.md §1, §2). One meaning for each row of the opcode table, over the
shared operations of Operands.lean. -/

namespace Sys2Proof.Machine

/-- LDA: `A <- v; setNZ(v)` (R170). -/
def loadA (v : Byte) (r : Regs) : Regs :=
  { r with a := v, p := r.p.setNZ v }

def execLdaImm (v : Byte) (s : State) : Host.Outcome State Fault Refusal :=
  readInstruction 0xA9#8 (.imm v) loadA s

def execLdaZp (b : Byte) (s : State) : Host.Outcome State Fault Refusal :=
  readInstruction 0xA5#8 (.mem (.zp b)) loadA s

def execLdaZpX (b : Byte) (s : State) : Host.Outcome State Fault Refusal :=
  readInstruction 0xB5#8 (.mem (.zpX b)) loadA s

def execLdaAbs (w : Word) (s : State) : Host.Outcome State Fault Refusal :=
  readInstruction 0xAD#8 (.mem (.abs w)) loadA s

def execLdaAbsX (w : Word) (s : State) : Host.Outcome State Fault Refusal :=
  readInstruction 0xBD#8 (.mem (.absX w)) loadA s

def execLdaAbsY (w : Word) (s : State) : Host.Outcome State Fault Refusal :=
  readInstruction 0xB9#8 (.mem (.absY w)) loadA s

def execLdaIndX (b : Byte) (s : State) : Host.Outcome State Fault Refusal :=
  readInstruction 0xA1#8 (.mem (.indX b)) loadA s

def execLdaIndY (b : Byte) (s : State) : Host.Outcome State Fault Refusal :=
  readInstruction 0xB1#8 (.mem (.indY b)) loadA s

/-- LDX: `X <- v; setNZ(v)` (R171). -/
def loadX (v : Byte) (r : Regs) : Regs :=
  { r with x := v, p := r.p.setNZ v }

def execLdxImm (v : Byte) (s : State) : Host.Outcome State Fault Refusal :=
  readInstruction 0xA2#8 (.imm v) loadX s

def execLdxZp (b : Byte) (s : State) : Host.Outcome State Fault Refusal :=
  readInstruction 0xA6#8 (.mem (.zp b)) loadX s

def execLdxZpY (b : Byte) (s : State) : Host.Outcome State Fault Refusal :=
  readInstruction 0xB6#8 (.mem (.zpY b)) loadX s

def execLdxAbs (w : Word) (s : State) : Host.Outcome State Fault Refusal :=
  readInstruction 0xAE#8 (.mem (.abs w)) loadX s

def execLdxAbsY (w : Word) (s : State) : Host.Outcome State Fault Refusal :=
  readInstruction 0xBE#8 (.mem (.absY w)) loadX s

/-- LDY: `Y <- v; setNZ(v)` (R172). -/
def loadY (v : Byte) (r : Regs) : Regs :=
  { r with y := v, p := r.p.setNZ v }

def execLdyImm (v : Byte) (s : State) : Host.Outcome State Fault Refusal :=
  readInstruction 0xA0#8 (.imm v) loadY s

def execLdyZp (b : Byte) (s : State) : Host.Outcome State Fault Refusal :=
  readInstruction 0xA4#8 (.mem (.zp b)) loadY s

def execLdyZpX (b : Byte) (s : State) : Host.Outcome State Fault Refusal :=
  readInstruction 0xB4#8 (.mem (.zpX b)) loadY s

def execLdyAbs (w : Word) (s : State) : Host.Outcome State Fault Refusal :=
  readInstruction 0xAC#8 (.mem (.abs w)) loadY s

def execLdyAbsX (w : Word) (s : State) : Host.Outcome State Fault Refusal :=
  readInstruction 0xBC#8 (.mem (.absX w)) loadY s

/-! STA: `store(operand, A)` (R173). -/

def execStaZp (b : Byte) (s : State) : Host.Outcome State Fault Refusal :=
  writeInstruction 0x85#8 (.zp b) Regs.a s

def execStaZpX (b : Byte) (s : State) : Host.Outcome State Fault Refusal :=
  writeInstruction 0x95#8 (.zpX b) Regs.a s

def execStaAbs (w : Word) (s : State) : Host.Outcome State Fault Refusal :=
  writeInstruction 0x8D#8 (.abs w) Regs.a s

def execStaAbsX (w : Word) (s : State) : Host.Outcome State Fault Refusal :=
  writeInstruction 0x9D#8 (.absX w) Regs.a s

def execStaAbsY (w : Word) (s : State) : Host.Outcome State Fault Refusal :=
  writeInstruction 0x99#8 (.absY w) Regs.a s

def execStaIndX (b : Byte) (s : State) : Host.Outcome State Fault Refusal :=
  writeInstruction 0x81#8 (.indX b) Regs.a s

def execStaIndY (b : Byte) (s : State) : Host.Outcome State Fault Refusal :=
  writeInstruction 0x91#8 (.indY b) Regs.a s

/-! STX: `store(operand, X)` (R174). -/

def execStxZp (b : Byte) (s : State) : Host.Outcome State Fault Refusal :=
  writeInstruction 0x86#8 (.zp b) Regs.x s

def execStxZpY (b : Byte) (s : State) : Host.Outcome State Fault Refusal :=
  writeInstruction 0x96#8 (.zpY b) Regs.x s

def execStxAbs (w : Word) (s : State) : Host.Outcome State Fault Refusal :=
  writeInstruction 0x8E#8 (.abs w) Regs.x s

/-! STY: `store(operand, Y)` (R175). -/

def execStyZp (b : Byte) (s : State) : Host.Outcome State Fault Refusal :=
  writeInstruction 0x84#8 (.zp b) Regs.y s

def execStyZpX (b : Byte) (s : State) : Host.Outcome State Fault Refusal :=
  writeInstruction 0x94#8 (.zpX b) Regs.y s

def execStyAbs (w : Word) (s : State) : Host.Outcome State Fault Refusal :=
  writeInstruction 0x8C#8 (.abs w) Regs.y s

end Sys2Proof.Machine
end

