-- ==== Sys2Proof/Machine/Shift.lean ====
section
/-! DEFINITION. Shifts, rotates, increments and decrements (spec/44_shift_incdec.md). One meaning for each row of the opcode table, over the
shared operations of Operands.lean. -/

namespace Sys2Proof.Machine

/-! ASL: `shiftLeft` on its operand (R231). -/

def execAslZp (b : Byte) (s : State) : Host.Outcome State Fault Refusal :=
  modifyInstruction 0x06#8 (.mem (.zp b)) shiftLeft s

def execAslZpX (b : Byte) (s : State) : Host.Outcome State Fault Refusal :=
  modifyInstruction 0x16#8 (.mem (.zpX b)) shiftLeft s

def execAslAbs (w : Word) (s : State) : Host.Outcome State Fault Refusal :=
  modifyInstruction 0x0E#8 (.mem (.abs w)) shiftLeft s

def execAslAbsX (w : Word) (s : State) : Host.Outcome State Fault Refusal :=
  modifyInstruction 0x1E#8 (.mem (.absX w)) shiftLeft s

def execAslAcc (s : State) : Host.Outcome State Fault Refusal :=
  modifyInstruction 0x0A#8 .acc shiftLeft s

/-! LSR: `shiftRight` on its operand (R232). -/

def execLsrZp (b : Byte) (s : State) : Host.Outcome State Fault Refusal :=
  modifyInstruction 0x46#8 (.mem (.zp b)) shiftRight s

def execLsrZpX (b : Byte) (s : State) : Host.Outcome State Fault Refusal :=
  modifyInstruction 0x56#8 (.mem (.zpX b)) shiftRight s

def execLsrAbs (w : Word) (s : State) : Host.Outcome State Fault Refusal :=
  modifyInstruction 0x4E#8 (.mem (.abs w)) shiftRight s

def execLsrAbsX (w : Word) (s : State) : Host.Outcome State Fault Refusal :=
  modifyInstruction 0x5E#8 (.mem (.absX w)) shiftRight s

def execLsrAcc (s : State) : Host.Outcome State Fault Refusal :=
  modifyInstruction 0x4A#8 .acc shiftRight s

/-! ROL: `rotateLeft` on its operand (R233). -/

def execRolZp (b : Byte) (s : State) : Host.Outcome State Fault Refusal :=
  modifyInstruction 0x26#8 (.mem (.zp b)) rotateLeft s

def execRolZpX (b : Byte) (s : State) : Host.Outcome State Fault Refusal :=
  modifyInstruction 0x36#8 (.mem (.zpX b)) rotateLeft s

def execRolAbs (w : Word) (s : State) : Host.Outcome State Fault Refusal :=
  modifyInstruction 0x2E#8 (.mem (.abs w)) rotateLeft s

def execRolAbsX (w : Word) (s : State) : Host.Outcome State Fault Refusal :=
  modifyInstruction 0x3E#8 (.mem (.absX w)) rotateLeft s

def execRolAcc (s : State) : Host.Outcome State Fault Refusal :=
  modifyInstruction 0x2A#8 .acc rotateLeft s

/-! ROR: `rotateRight` on its operand (R234). -/

def execRorZp (b : Byte) (s : State) : Host.Outcome State Fault Refusal :=
  modifyInstruction 0x66#8 (.mem (.zp b)) rotateRight s

def execRorZpX (b : Byte) (s : State) : Host.Outcome State Fault Refusal :=
  modifyInstruction 0x76#8 (.mem (.zpX b)) rotateRight s

def execRorAbs (w : Word) (s : State) : Host.Outcome State Fault Refusal :=
  modifyInstruction 0x6E#8 (.mem (.abs w)) rotateRight s

def execRorAbsX (w : Word) (s : State) : Host.Outcome State Fault Refusal :=
  modifyInstruction 0x7E#8 (.mem (.absX w)) rotateRight s

def execRorAcc (s : State) : Host.Outcome State Fault Refusal :=
  modifyInstruction 0x6A#8 .acc rotateRight s

/-! INC: `increment` on its operand (R235). -/

def execIncZp (b : Byte) (s : State) : Host.Outcome State Fault Refusal :=
  modifyInstruction 0xE6#8 (.mem (.zp b)) increment s

def execIncZpX (b : Byte) (s : State) : Host.Outcome State Fault Refusal :=
  modifyInstruction 0xF6#8 (.mem (.zpX b)) increment s

def execIncAbs (w : Word) (s : State) : Host.Outcome State Fault Refusal :=
  modifyInstruction 0xEE#8 (.mem (.abs w)) increment s

def execIncAbsX (w : Word) (s : State) : Host.Outcome State Fault Refusal :=
  modifyInstruction 0xFE#8 (.mem (.absX w)) increment s

/-! DEC: `decrement` on its operand (R236). -/

def execDecZp (b : Byte) (s : State) : Host.Outcome State Fault Refusal :=
  modifyInstruction 0xC6#8 (.mem (.zp b)) decrement s

def execDecZpX (b : Byte) (s : State) : Host.Outcome State Fault Refusal :=
  modifyInstruction 0xD6#8 (.mem (.zpX b)) decrement s

def execDecAbs (w : Word) (s : State) : Host.Outcome State Fault Refusal :=
  modifyInstruction 0xCE#8 (.mem (.abs w)) decrement s

def execDecAbsX (w : Word) (s : State) : Host.Outcome State Fault Refusal :=
  modifyInstruction 0xDE#8 (.mem (.absX w)) decrement s

/-- INX: `X <- (X + 1) mod 256; setNZ(X)` (R237). -/
def execInx (s : State) : Host.Outcome State Fault Refusal :=
  registerInstruction (fun r => { r with x := r.x + 1#8, p := r.p.setNZ (r.x + 1#8) }) s

/-- INY: `Y <- (Y + 1) mod 256; setNZ(Y)` (R238). -/
def execIny (s : State) : Host.Outcome State Fault Refusal :=
  registerInstruction (fun r => { r with y := r.y + 1#8, p := r.p.setNZ (r.y + 1#8) }) s

/-- DEX: `X <- (X - 1) mod 256; setNZ(X)` (R239). -/
def execDex (s : State) : Host.Outcome State Fault Refusal :=
  registerInstruction (fun r => { r with x := r.x - 1#8, p := r.p.setNZ (r.x - 1#8) }) s

/-- DEY: `Y <- (Y - 1) mod 256; setNZ(Y)` (R240). -/
def execDey (s : State) : Host.Outcome State Fault Refusal :=
  registerInstruction (fun r => { r with y := r.y - 1#8, p := r.p.setNZ (r.y - 1#8) }) s

end Sys2Proof.Machine
end

