-- ==== Sys2Proof/Machine/Transfer.lean ====
section
/-! DEFINITION. Register transfers and stack transfers (spec/42_load_store_transfer.md §3, §4). One meaning for each row of the opcode table, over the
shared operations of Operands.lean. -/

namespace Sys2Proof.Machine

/-- TAX: `X <- A; setNZ(X)` (R176). -/
def execTax (s : State) : Host.Outcome State Fault Refusal :=
  registerInstruction (fun r => { r with x := r.a, p := r.p.setNZ r.a }) s

/-- TAY: `Y <- A; setNZ(Y)` (R177). -/
def execTay (s : State) : Host.Outcome State Fault Refusal :=
  registerInstruction (fun r => { r with y := r.a, p := r.p.setNZ r.a }) s

/-- TXA: `A <- X; setNZ(A)` (R178). -/
def execTxa (s : State) : Host.Outcome State Fault Refusal :=
  registerInstruction (fun r => { r with a := r.x, p := r.p.setNZ r.x }) s

/-- TYA: `A <- Y; setNZ(A)` (R179). -/
def execTya (s : State) : Host.Outcome State Fault Refusal :=
  registerInstruction (fun r => { r with a := r.y, p := r.p.setNZ r.y }) s

/-- TSX: `X <- SP; setNZ(X)` (R180). -/
def execTsx (s : State) : Host.Outcome State Fault Refusal :=
  registerInstruction (fun r => { r with x := r.sp, p := r.p.setNZ r.sp }) s

/-- TXS: `SP <- X`, no flag (R181). -/
def execTxs (s : State) : Host.Outcome State Fault Refusal :=
  registerInstruction (fun r => { r with sp := r.x }) s

/-- PHA: `push8(A)` (R182). -/
def execPha (s : State) : Host.Outcome State Fault Refusal :=
  impliedInstruction 0x48#8 (fun s0 =>
    push8 s0.regs.a s0) s

/-- PHP: `push8(Serialize(P))`, with the stored B in bit 4 (R183). -/
def execPhp (s : State) : Host.Outcome State Fault Refusal :=
  impliedInstruction 0x08#8 (fun s0 =>
    push8 s0.regs.p.serialize s0) s

/-- PLA: `v <- pull8(); A <- v; setNZ(v)` (R184). -/
def execPla (s : State) : Host.Outcome State Fault Refusal :=
  impliedInstruction 0x68#8 (fun s0 =>
    (pull8 s0).bind fun v s1 => .ok () (s1.withRegs (loadA v s1.regs))) s

/-- PLP: `Deserialize(pull8())` (R185). -/
def execPlp (s : State) : Host.Outcome State Fault Refusal :=
  impliedInstruction 0x28#8 (fun s0 =>
    (pull8 s0).bind fun b s1 => .ok () (s1.withFlags (Flags.deserialize b))) s

end Sys2Proof.Machine
end

