-- ==== Sys2Proof/Machine/Loop.lean ====
section
/-! DEFINITION. The fetch-decode-execute loop (spec/40_execution_loop.md): fetching an instruction's bytes through the bus,
one instruction step, one step, the self-loop that ends a run, and placing an instruction where the next step fetches it. -/

namespace Sys2Proof.Machine

/-- The operand bytes of an instruction, fetched in address order after the opcode at `opaddr`
(spec/41_addressing_modes.md R141). -/
def fetchOperands (sh : Shape) (opaddr : Word) (s : State) : Res Instr :=
  match sh with
  | .one i => .ok i s
  | .two mk => (readByte .fetch (opaddr + 1#16) s).bind fun b s1 => .ok (mk b) s1
  | .three mk =>
    (readByte .fetch (opaddr + 1#16) s).bind fun lo s1 =>
      (readByte .fetch (opaddr + 2#16) s1).bind fun hi s2 => .ok (mk (joinBytes hi lo)) s2

/-- Fetch, decode and execute one instruction (R120 to R124). A fault of the opcode fetch has no opcode in its record; a
later one has (spec/60_exceptions.md R305). The meaning runs at the boundary state, with the bus as the fetches left it
(log 12). -/
def runInstruction (s : State) : Host.Outcome State Fault Refusal :=
  match readByte .fetch s.regs.pc s with
  | .fault e s1 => endWithFault s none e s1
  | .ok op s1 =>
    match decodeOpcode op with
    | none => endWithFault s (some op) ⟨.illegalOpcode, .fetch, s.regs.pc, none⟩ s1
    | some sh =>
      match fetchOperands sh s.regs.pc s1 with
      | .fault e s2 => endWithFault s (some op) e s2
      | .ok i s2 => recordDiagnostics s.regs.pc (some op) (exec i s2)

/-- One step that is not in the faulted state: an interrupt entry, or an instruction (R120, spec/60_exceptions.md R314). -/
def runStep (s : State) : Host.Outcome State Fault Refusal :=
  match pendingInterrupt s with
  | some k => interruptEntry k s
  | none => runInstruction s

/-- The two spaces in which a self-loop can be recognised: RAM and cartridge space (R127). -/
def inRamOrCartridge (a : Word) : Bool :=
  match decodeAddress a with
  | .workRam _ | .cartridge _ => true
  | .ppuRegs _ | .apuRegs _ | .unmapped => false

/-- The three bytes at PC, read through the bus, when all three lie in RAM or in cartridge space (R127); none also where
the mapper fails. DESIGN CHOICE (log 17): the look is no access of the machine. It answers what the three fetches of the
next step get, at the same draws, and it leaves no trace: with another mapper no call is listed and no draw is taken. -/
def bytesAtPc (s : State) : Option (Byte × Byte × Byte) :=
  let pc := s.regs.pc
  if inRamOrCartridge pc && inRamOrCartridge (pc + 1#16) && inRamOrCartridge (pc + 2#16) then
    match (readByte .fetch pc s).bind fun op s1 =>
      (readByte .fetch (pc + 1#16) s1).bind fun lo s2 =>
        (readByte .fetch (pc + 2#16) s2).bind fun hi s3 => .ok (op, lo, hi) s3 with
    | .ok bytes _ => some bytes
    | .fault _ _ => none
  else none

/-- The three bytes at PC are a `JMP` to its own address (R127, spec/45_control_flow.md R260), with any mapper. What the
look at them does is the model's choice (log 17). -/
def atSelfLoop (s : State) : Bool := bytesAtPc s == some (0x4C#8, lowByte s.regs.pc, highByte s.regs.pc)

/-- An address whose byte a program can be loaded at: work RAM, or the reference mapper's program bank. -/
def State.storable (s : State) (a : Word) : Bool := (s.peek a).isSome

/-- Where `withFetchWord` places an instruction: at PC when three bytes can be stored there, else in work RAM at 0x0200
(log 2). -/
def fetchBase (s : State) : Word :=
  if s.storable s.regs.pc && s.storable (s.regs.pc + 1#16) && s.storable (s.regs.pc + 2#16) then s.regs.pc
  else 0x0200#16

/-- Store bytes at consecutive addresses, mod 2^16. -/
def pokeBytes : List Byte → Word → State → State
  | [], _, s => s
  | b :: bs, a, s => pokeBytes bs (a + 1#16) (s.poke a b)

/-- Place bytes where the next step fetches, and let that step fetch: no latched fault, no interrupt to take (log 2). -/
def placeInstruction (bs : List Byte) (s : State) : State :=
  let base := fetchBase s
  pokeBytes bs base
    ((((s.withFault none).withNmi false).withIrq (s.irqLine && s.regs.p.i)).withPc base)

end Sys2Proof.Machine
end

