-- ==== Sys2Proof/Machine/Step.lean ====
section
/-! DEFINITION. One step of the machine (spec/40_execution_loop.md R120), and the placing of one instruction where the next
step fetches it. -/

namespace Sys2Proof.Machine

/-- One step: in the faulted state nothing happens and the recorded fault is reported again (spec/60_exceptions.md R304);
else an interrupt entry or an instruction. -/
def step (s : State) : Host.Outcome State Fault Refusal :=
  match s.fault with
  | some r => .fault (Fault.report r s)
  | none => runStep s

/-- The state with the instruction of a table word stored where `step` fetches its next instruction (log 2). -/
def State.withFetchWord (s : State) (nbits w : Nat) : State := placeInstruction (tableWordBytes nbits w) s

end Sys2Proof.Machine
end

