-- ==== Sys2Proof/Machine/HostInterface.lean ====
section
/-! DEFINITION. What the host can do to the core between steps (spec/40_execution_loop.md R128), and `power()`
(spec/70_reset_and_hazards.md R340 to R344). The host's answers to device reads are the free values of Config. -/

namespace Sys2Proof.Machine

/-- The core as `power()` leaves it before the vector read: latches empty, RAM all 0xFF, registers and flags zero, SP
adjusted to 0xFD with no push (R340 to R342). The mapper, its program bank, the devices and the host's IRQ line are not
the core's and stay (R340, log 11). -/
def clearCore (s : State) : State :=
  { s with
    regs := { a := 0x00#8, x := 0x00#8, y := 0x00#8, sp := 0x00#8 - 3#8, pc := 0x0000#16,
              p := { n := false, v := false, b := false, d := false, i := false, z := false, c := false } }
    bus := s.bus.withRam []
    nmiPending := false
    fault := none
    diag := none }

/-- `power()`, the only reset (R340, R344): clear the core, then load PC from the reset vector through the bus (R343). If
the mapper fails there, the fault is latched and PC stays 0x0000 (R343, log 13). -/
def State.power (s : State) : State :=
  let s0 := clearCore s
  match readVector resetVector s0 with
  | .ok w s1 => s1.withPc w
  | .fault e s1 => faultedState s0 none e s1

/-- What `power()` returns to the host: nothing, or the fault of the vector read, with the faulted state (R128, R343). -/
def powerOutcome (s : State) : Host.Outcome State Fault Refusal :=
  match s.power.fault with
  | none => .next s.power
  | some r => .fault (Fault.report r s.power)

/-- A signal on the NMI input, between two steps: it sets the latch, and a second signal merges with the first
(spec/60_exceptions.md R310). -/
def State.signalNmi (s : State) : State := s.withNmi true

/-- The host drives the IRQ line to a level, between two steps (spec/60_exceptions.md R311). -/
def State.driveIrq (s : State) (level : Bool) : State := s.withIrq level

/-- The host attaches a mapper with its program bank (R128, spec/20_memory.md R59). -/
def State.attachMapper (s : State) (m : Mapper) (prg : Memory) : State :=
  s.withBus { s.bus with mapper := m, prg := prg }

/-- The host's interactions with the core (R128). A mapper may be attached only before a `power()`, so the two are one
action (log 14). -/
inductive HostAction where
  | step
  | power
  | attachMapperAndPower (m : Mapper) (prg : Memory)
  | signalNmi
  | driveIrq (level : Bool)
  deriving DecidableEq, Repr

/-- What each interaction does, and what the core returns: `.next` where it returns nothing or the diagnostics, which stand
in the state; `.fault` for a fault record of `step()` or of `power()` (R128). -/
def hostAct (h : HostAction) (s : State) : Host.Outcome State Fault Refusal :=
  match h with
  | .step => Sys2Proof.Machine.step s
  | .power => powerOutcome s
  | .attachMapperAndPower m prg => powerOutcome (s.attachMapper m prg)
  | .signalNmi => .next s.signalNmi
  | .driveIrq level => .next (s.driveIrq level)

end Sys2Proof.Machine
end

