-- ==== Sys2Proof/Safety.lean ====
section
/-! DEFINITION. What counts as the end of a run (spec/40_execution_loop.md R127), and a safe step. -/

namespace Sys2Proof.Machine

/-- How a run ends at an instruction boundary (R127): with a latched fault, never a success; or at a `JMP` to its own
address, a success. The core itself does not stop at the latter. -/
inductive RunEnd where
  | faulted
  | selfLoop
  deriving DecidableEq, Repr

/-- Whether a run has ended at this boundary, and how (R127): a latched fault is a faulted end, whatever stands at PC. -/
def runEnd (s : State) : Option RunEnd :=
  if s.fault.isSome then some .faulted
  else if atSelfLoop s then some .selfLoop
  else none

/-- A step that does not fault: what a safe run is made of. -/
def SafeStep (s : State) : Prop := ∃ t, step s = .next t

end Sys2Proof.Machine
end

