-- ==== Sys2Proof/Certificates/Slice0/Obligations.lean ====
section
/-! DEFINITION. The statements about the model, from the numbered rules of spec/. Where a rule gives a value, the statement
writes the value out in arithmetic of its own (`nz`, `statusByte`, `flagsOf`, `sumByte`, ...), not with the model's
function. -/

namespace Sys2Proof.Claims

open Sys2Proof.Machine

/-! ### Vocabulary -/

/-- `s` with PC moved past `n` bytes. -/
def past (s : State) (n : Nat) : State := { s with regs := { s.regs with pc := s.regs.pc + BitVec.ofNat 16 n } }

/-- `setNZ(v)`: N is bit 7 of `v`, Z says that `v` is zero (spec/00_scope.md R11). -/
def nz (p : Flags) (v : Byte) : Flags := { p with n := v.msb, z := decide (v = 0x00#8) }

/-- The status byte of R31, as a sum of its bits. -/
def statusByte (p : Flags) : Byte :=
  BitVec.ofNat 8 (128 * p.n.toNat + 64 * p.v.toNat + 32 + 16 * p.b.toNat + 8 * p.d.toNat + 4 * p.i.toNat +
    2 * p.z.toNat + p.c.toNat)

/-- The flags of a pulled status byte (R32): bit 5 is ignored. -/
def flagsOf (b : Byte) : Flags :=
  { n := b.getLsbD 7, v := b.getLsbD 6, b := b.getLsbD 4, d := b.getLsbD 3, i := b.getLsbD 2, z := b.getLsbD 1,
    c := b.getLsbD 0 }

/-- The register snapshot of R42 and spec/60_exceptions.md R305. -/
def snapshotOf (r : Regs) : RegSnapshot :=
  { pc := r.pc, sp := r.sp, a := r.a, x := r.x, y := r.y, status := statusByte r.p }

/-- The addresses to which nothing is mapped (spec/20_memory.md R58). -/
def inHole (a : Word) : Prop := 0x4018 ≤ a.toNat ∧ a.toNat < 0x8000

/-- The byte of the stack page that `sp` names. -/
def stackByte (m : Memory) (sp : Byte) : Byte := Memory.read m (0x0100 + sp.toNat)

/-- Work RAM after bytes are pushed in order from the stack pointer `sp`, which moves down mod 256. -/
def pushBytes : List Byte → Byte → Memory → Memory
  | [], _, m => m
  | b :: bs, sp, m => pushBytes bs (sp - 1#8) (Memory.write m (0x0100 + sp.toNat) b)

/-- Work RAM after `n` pulls from the stack pointer `sp`, which moves up first: each vacated byte is zeroed when `zeroes`
says so, and nothing changes otherwise (spec/20_memory.md R72). -/
def pullBytes (zeroes : Bool) : Nat → Byte → Memory → Memory
  | 0, _, m => m
  | n + 1, sp, m =>
    pullBytes zeroes n (sp + 1#8) (if zeroes then Memory.write m (0x0100 + (sp + 1#8).toNat) 0x00#8 else m)

/-- `s` with its work RAM replaced. -/
def ramPut (s : State) (m : Memory) : State := { s with bus := { s.bus with ram := m } }

/-- `s` with its registers changed by `f`. -/
def onRegs (s : State) (f : Regs → Regs) : State := { s with regs := f s.regs }

/-- No latched fault and no interrupt to take: the step executes an instruction (R120, spec/60_exceptions.md R314). -/
def runsInstruction (s : State) : Prop :=
  s.fault = none ∧ s.nmiPending = false ∧ (s.irqLine = false ∨ s.regs.p.i = true)

/-- `n` instruction bytes fetched one after another from address `a` on (spec/41_addressing_modes.md R141). -/
def fetchSequence : Nat → Word → State → Res (List Byte)
  | 0, _, s => .ok [] s
  | n + 1, a, s =>
    match readByte .fetch a s with
    | .fault e s1 => .fault e s1
    | .ok b s1 =>
      match fetchSequence n (a + 1#16) s1 with
      | .fault e s2 => .fault e s2
      | .ok bs s2 => .ok (b :: bs) s2

/-- The word at the vector `v` in the reference mapper's program bank, low byte first (R60, spec/60_exceptions.md R313). -/
def bankWord (m : Memory) (v : Word) : Word :=
  joinBytes (Memory.read m (v.toNat - 0x7FFF)) (Memory.read m (v.toNat - 0x8000))

/-- What a mapper other than the reference mapper answers to the reads of the vector at `v`, low byte first: the word, or the
address whose read fails, with the mapper's detail (R59, spec/60_exceptions.md R302, R313). That the answers are those of
Config at the draws `n` and `n + 1` is the model's choice (log 3, log 5). -/
def answeredWord (n : Nat) (v : Word) : Except (Word × Nat) Word :=
  match Config.otherMapperRead n v with
  | .error d => .error (v, d)
  | .ok lo =>
    match Config.otherMapperRead (n + 1) (v + 1#16) with
    | .error d => .error (v + 1#16, d)
    | .ok hi => .ok (joinBytes hi lo)

/-- The step of `s` ends with the fault `e` of the fetch at `a`, raised in `t`: the record of R305 with the opcode given, the
kind that the address makes possible, and in the latch of `t` (R300, R302; log 8). -/
def EndsWithFetchFault (s : State) (opcode : Option Byte) (a : Word) (e : Raised) (t : State) : Prop :=
  let record (k : FaultKind) : FaultRecord :=
    { kind := k, access := .fetch, address := a, opcode := opcode, opaddr := s.regs.pc,
      snapshot := snapshotOf s.regs, detail := e.detail }
  (inHole a ∧ e.detail = none ∧
    step s = .fault (.unmappedAddress (record .unmappedAddress) { t with fault := some (record .unmappedAddress) })) ∨
  (0x8000 ≤ a.toNat ∧ s.bus.mapper = .other ∧ (∃ d, e.detail = some d) ∧
    step s = .fault (.mapperFault (record .mapperFault) { t with fault := some (record .mapperFault) }))

/-- Whichever of the `n` operand-byte fetches from `a` on faults first, in `u` after the opcode fetch, ends the step of `s`
(spec/41_addressing_modes.md R141). -/
def OperandFetchFaultsEnd (s : State) (opcode : Byte) : Nat → Word → State → Prop
  | 0, _, _ => True
  | n + 1, a, u =>
    match readByte .fetch a u with
    | .fault e t => EndsWithFetchFault s (some opcode) a e t
    | .ok _ u1 => OperandFetchFaultsEnd s opcode n (a + 1#16) u1

/-- Interrupt entry through the vector at `v`, in one step: PC and the status with bit 4 = 0 pushed, I set, every other flag
and register but SP kept, PC the word at the vector, the NMI latch clear, a diagnostic record with no opcode. When another
mapper fails on a vector byte: MapperFault, the pushes kept, the registers as before, no opcode in the record. That opaddr
of the diagnostic record is PC at the boundary is the model's choice (log 10). -/
def EntersThrough (v : Word) (s : State) : Prop :=
  let pushed := pushBytes [highByte s.regs.pc, lowByte s.regs.pc, statusByte { s.regs.p with b := false }]
    s.regs.sp s.bus.ram
  let entered (pc : Word) : Regs := { s.regs with sp := s.regs.sp - 3#8, p := { s.regs.p with i := true }, pc := pc }
  let record (pc : Word) : Diagnostics :=
    { snapshot := snapshotOf (entered pc), opaddr := s.regs.pc, opcode := none }
  (s.bus.mapper = .reference → step s = .next { ramPut s pushed with
    regs := entered (bankWord s.bus.prg v), nmiPending := false, diag := some (record (bankWord s.bus.prg v)) }) ∧
  (s.bus.mapper = .other →
    match answeredWord s.bus.draws v with
    | .error (a, d) => ∃ r t, step s = .fault (.mapperFault r t) ∧ r.access = .read ∧ r.address = a ∧ r.opcode = none ∧
        r.opaddr = s.regs.pc ∧ r.snapshot = snapshotOf s.regs ∧ r.detail = some d ∧ t.fault = some r ∧
        t.regs = s.regs ∧ t.bus.ram = pushed
    | .ok pc => ∃ t, step s = .next t ∧ t.regs = entered pc ∧ t.bus.ram = pushed ∧ t.nmiPending = false ∧
        t.fault = none ∧ t.diag = some (record pc))

/-- The 105 opcode bytes of R103. -/
def undocumented : List Nat :=
  [0x02, 0x03, 0x04, 0x07, 0x0B, 0x0C, 0x0F, 0x12, 0x13, 0x14, 0x17, 0x1A, 0x1B, 0x1C, 0x1F] ++
  [0x22, 0x23, 0x27, 0x2B, 0x2F, 0x32, 0x33, 0x34, 0x37, 0x3A, 0x3B, 0x3C, 0x3F] ++
  [0x42, 0x43, 0x44, 0x47, 0x4B, 0x4F, 0x52, 0x53, 0x54, 0x57, 0x5A, 0x5B, 0x5C, 0x5F] ++
  [0x62, 0x63, 0x64, 0x67, 0x6B, 0x6F, 0x72, 0x73, 0x74, 0x77, 0x7A, 0x7B, 0x7C, 0x7F] ++
  [0x80, 0x82, 0x83, 0x87, 0x89, 0x8B, 0x8F, 0x92, 0x93, 0x97, 0x9B, 0x9C, 0x9E, 0x9F] ++
  [0xA3, 0xA7, 0xAB, 0xAF, 0xB2, 0xB3, 0xB7, 0xBB, 0xBF] ++
  [0xC2, 0xC3, 0xC7, 0xCB, 0xCF, 0xD2, 0xD3, 0xD4, 0xD7, 0xDA, 0xDB, 0xDC, 0xDF] ++
  [0xE2, 0xE3, 0xE7, 0xEB, 0xEF, 0xF2, 0xF3, 0xF4, 0xF7, 0xFA, 0xFB, 0xFC, 0xFF]

/-! ### The forms of each mnemonic, with the bytes of spec/30_encoding.md R97 -/

/-- The forms of LDA, their bytes and operands (R170). -/
def ldaRows (b : Byte) (w : Word) : List (Instr × List Byte × ReadArg) :=
  [(.ldaImm b, [0xA9#8, b], .imm b),
   (.ldaZp b, [0xA5#8, b], .mem (.zp b)),
   (.ldaZpX b, [0xB5#8, b], .mem (.zpX b)),
   (.ldaAbs w, [0xAD#8, lowByte w, highByte w], .mem (.abs w)),
   (.ldaAbsX w, [0xBD#8, lowByte w, highByte w], .mem (.absX w)),
   (.ldaAbsY w, [0xB9#8, lowByte w, highByte w], .mem (.absY w)),
   (.ldaIndX b, [0xA1#8, b], .mem (.indX b)),
   (.ldaIndY b, [0xB1#8, b], .mem (.indY b))]

/-- The forms of LDX, their bytes and operands (R171). -/
def ldxRows (b : Byte) (w : Word) : List (Instr × List Byte × ReadArg) :=
  [(.ldxImm b, [0xA2#8, b], .imm b),
   (.ldxZp b, [0xA6#8, b], .mem (.zp b)),
   (.ldxZpY b, [0xB6#8, b], .mem (.zpY b)),
   (.ldxAbs w, [0xAE#8, lowByte w, highByte w], .mem (.abs w)),
   (.ldxAbsY w, [0xBE#8, lowByte w, highByte w], .mem (.absY w))]

/-- The forms of LDY, their bytes and operands (R172). -/
def ldyRows (b : Byte) (w : Word) : List (Instr × List Byte × ReadArg) :=
  [(.ldyImm b, [0xA0#8, b], .imm b),
   (.ldyZp b, [0xA4#8, b], .mem (.zp b)),
   (.ldyZpX b, [0xB4#8, b], .mem (.zpX b)),
   (.ldyAbs w, [0xAC#8, lowByte w, highByte w], .mem (.abs w)),
   (.ldyAbsX w, [0xBC#8, lowByte w, highByte w], .mem (.absX w))]

/-- The forms of ADC, their bytes and operands (R202). -/
def adcRows (b : Byte) (w : Word) : List (Instr × List Byte × ReadArg) :=
  [(.adcImm b, [0x69#8, b], .imm b),
   (.adcZp b, [0x65#8, b], .mem (.zp b)),
   (.adcZpX b, [0x75#8, b], .mem (.zpX b)),
   (.adcAbs w, [0x6D#8, lowByte w, highByte w], .mem (.abs w)),
   (.adcAbsX w, [0x7D#8, lowByte w, highByte w], .mem (.absX w)),
   (.adcAbsY w, [0x79#8, lowByte w, highByte w], .mem (.absY w)),
   (.adcIndX b, [0x61#8, b], .mem (.indX b)),
   (.adcIndY b, [0x71#8, b], .mem (.indY b))]

/-- The forms of SBC, their bytes and operands (R203). -/
def sbcRows (b : Byte) (w : Word) : List (Instr × List Byte × ReadArg) :=
  [(.sbcImm b, [0xE9#8, b], .imm b),
   (.sbcZp b, [0xE5#8, b], .mem (.zp b)),
   (.sbcZpX b, [0xF5#8, b], .mem (.zpX b)),
   (.sbcAbs w, [0xED#8, lowByte w, highByte w], .mem (.abs w)),
   (.sbcAbsX w, [0xFD#8, lowByte w, highByte w], .mem (.absX w)),
   (.sbcAbsY w, [0xF9#8, lowByte w, highByte w], .mem (.absY w)),
   (.sbcIndX b, [0xE1#8, b], .mem (.indX b)),
   (.sbcIndY b, [0xF1#8, b], .mem (.indY b))]

/-- The forms of AND, their bytes and operands (R204). -/
def andRows (b : Byte) (w : Word) : List (Instr × List Byte × ReadArg) :=
  [(.andImm b, [0x29#8, b], .imm b),
   (.andZp b, [0x25#8, b], .mem (.zp b)),
   (.andZpX b, [0x35#8, b], .mem (.zpX b)),
   (.andAbs w, [0x2D#8, lowByte w, highByte w], .mem (.abs w)),
   (.andAbsX w, [0x3D#8, lowByte w, highByte w], .mem (.absX w)),
   (.andAbsY w, [0x39#8, lowByte w, highByte w], .mem (.absY w)),
   (.andIndX b, [0x21#8, b], .mem (.indX b)),
   (.andIndY b, [0x31#8, b], .mem (.indY b))]

/-- The forms of ORA, their bytes and operands (R205). -/
def oraRows (b : Byte) (w : Word) : List (Instr × List Byte × ReadArg) :=
  [(.oraImm b, [0x09#8, b], .imm b),
   (.oraZp b, [0x05#8, b], .mem (.zp b)),
   (.oraZpX b, [0x15#8, b], .mem (.zpX b)),
   (.oraAbs w, [0x0D#8, lowByte w, highByte w], .mem (.abs w)),
   (.oraAbsX w, [0x1D#8, lowByte w, highByte w], .mem (.absX w)),
   (.oraAbsY w, [0x19#8, lowByte w, highByte w], .mem (.absY w)),
   (.oraIndX b, [0x01#8, b], .mem (.indX b)),
   (.oraIndY b, [0x11#8, b], .mem (.indY b))]

/-- The forms of EOR, their bytes and operands (R206). -/
def eorRows (b : Byte) (w : Word) : List (Instr × List Byte × ReadArg) :=
  [(.eorImm b, [0x49#8, b], .imm b),
   (.eorZp b, [0x45#8, b], .mem (.zp b)),
   (.eorZpX b, [0x55#8, b], .mem (.zpX b)),
   (.eorAbs w, [0x4D#8, lowByte w, highByte w], .mem (.abs w)),
   (.eorAbsX w, [0x5D#8, lowByte w, highByte w], .mem (.absX w)),
   (.eorAbsY w, [0x59#8, lowByte w, highByte w], .mem (.absY w)),
   (.eorIndX b, [0x41#8, b], .mem (.indX b)),
   (.eorIndY b, [0x51#8, b], .mem (.indY b))]

/-- The forms of BIT, their bytes and operands (R207). -/
def bitRows (b : Byte) (w : Word) : List (Instr × List Byte × ReadArg) :=
  [(.bitZp b, [0x24#8, b], .mem (.zp b)),
   (.bitAbs w, [0x2C#8, lowByte w, highByte w], .mem (.abs w))]

/-- The forms of CMP, their bytes and operands (R209). -/
def cmpRows (b : Byte) (w : Word) : List (Instr × List Byte × ReadArg) :=
  [(.cmpImm b, [0xC9#8, b], .imm b),
   (.cmpZp b, [0xC5#8, b], .mem (.zp b)),
   (.cmpZpX b, [0xD5#8, b], .mem (.zpX b)),
   (.cmpAbs w, [0xCD#8, lowByte w, highByte w], .mem (.abs w)),
   (.cmpAbsX w, [0xDD#8, lowByte w, highByte w], .mem (.absX w)),
   (.cmpAbsY w, [0xD9#8, lowByte w, highByte w], .mem (.absY w)),
   (.cmpIndX b, [0xC1#8, b], .mem (.indX b)),
   (.cmpIndY b, [0xD1#8, b], .mem (.indY b))]

/-- The forms of CPX, their bytes and operands (R210). -/
def cpxRows (b : Byte) (w : Word) : List (Instr × List Byte × ReadArg) :=
  [(.cpxImm b, [0xE0#8, b], .imm b),
   (.cpxZp b, [0xE4#8, b], .mem (.zp b)),
   (.cpxAbs w, [0xEC#8, lowByte w, highByte w], .mem (.abs w))]

/-- The forms of CPY, their bytes and operands (R211). -/
def cpyRows (b : Byte) (w : Word) : List (Instr × List Byte × ReadArg) :=
  [(.cpyImm b, [0xC0#8, b], .imm b),
   (.cpyZp b, [0xC4#8, b], .mem (.zp b)),
   (.cpyAbs w, [0xCC#8, lowByte w, highByte w], .mem (.abs w))]

/-- The forms of STA, their bytes and operands (R173). -/
def staRows (b : Byte) (w : Word) : List (Instr × List Byte × MemArg) :=
  [(.staZp b, [0x85#8, b], .zp b),
   (.staZpX b, [0x95#8, b], .zpX b),
   (.staAbs w, [0x8D#8, lowByte w, highByte w], .abs w),
   (.staAbsX w, [0x9D#8, lowByte w, highByte w], .absX w),
   (.staAbsY w, [0x99#8, lowByte w, highByte w], .absY w),
   (.staIndX b, [0x81#8, b], .indX b),
   (.staIndY b, [0x91#8, b], .indY b)]

/-- The forms of STX, their bytes and operands (R174). -/
def stxRows (b : Byte) (w : Word) : List (Instr × List Byte × MemArg) :=
  [(.stxZp b, [0x86#8, b], .zp b),
   (.stxZpY b, [0x96#8, b], .zpY b),
   (.stxAbs w, [0x8E#8, lowByte w, highByte w], .abs w)]

/-- The forms of STY, their bytes and operands (R175). -/
def styRows (b : Byte) (w : Word) : List (Instr × List Byte × MemArg) :=
  [(.styZp b, [0x84#8, b], .zp b),
   (.styZpX b, [0x94#8, b], .zpX b),
   (.styAbs w, [0x8C#8, lowByte w, highByte w], .abs w)]

/-- The forms of ASL, their bytes and operands (R231). -/
def aslRows (b : Byte) (w : Word) : List (Instr × List Byte × ModifyArg) :=
  [(.aslZp b, [0x06#8, b], .mem (.zp b)),
   (.aslZpX b, [0x16#8, b], .mem (.zpX b)),
   (.aslAbs w, [0x0E#8, lowByte w, highByte w], .mem (.abs w)),
   (.aslAbsX w, [0x1E#8, lowByte w, highByte w], .mem (.absX w)),
   (.aslAcc, [0x0A#8], .acc)]

/-- The forms of LSR, their bytes and operands (R232). -/
def lsrRows (b : Byte) (w : Word) : List (Instr × List Byte × ModifyArg) :=
  [(.lsrZp b, [0x46#8, b], .mem (.zp b)),
   (.lsrZpX b, [0x56#8, b], .mem (.zpX b)),
   (.lsrAbs w, [0x4E#8, lowByte w, highByte w], .mem (.abs w)),
   (.lsrAbsX w, [0x5E#8, lowByte w, highByte w], .mem (.absX w)),
   (.lsrAcc, [0x4A#8], .acc)]

/-- The forms of ROL, their bytes and operands (R233). -/
def rolRows (b : Byte) (w : Word) : List (Instr × List Byte × ModifyArg) :=
  [(.rolZp b, [0x26#8, b], .mem (.zp b)),
   (.rolZpX b, [0x36#8, b], .mem (.zpX b)),
   (.rolAbs w, [0x2E#8, lowByte w, highByte w], .mem (.abs w)),
   (.rolAbsX w, [0x3E#8, lowByte w, highByte w], .mem (.absX w)),
   (.rolAcc, [0x2A#8], .acc)]

/-- The forms of ROR, their bytes and operands (R234). -/
def rorRows (b : Byte) (w : Word) : List (Instr × List Byte × ModifyArg) :=
  [(.rorZp b, [0x66#8, b], .mem (.zp b)),
   (.rorZpX b, [0x76#8, b], .mem (.zpX b)),
   (.rorAbs w, [0x6E#8, lowByte w, highByte w], .mem (.abs w)),
   (.rorAbsX w, [0x7E#8, lowByte w, highByte w], .mem (.absX w)),
   (.rorAcc, [0x6A#8], .acc)]

/-- The forms of INC, their bytes and operands (R235). -/
def incRows (b : Byte) (w : Word) : List (Instr × List Byte × ModifyArg) :=
  [(.incZp b, [0xE6#8, b], .mem (.zp b)),
   (.incZpX b, [0xF6#8, b], .mem (.zpX b)),
   (.incAbs w, [0xEE#8, lowByte w, highByte w], .mem (.abs w)),
   (.incAbsX w, [0xFE#8, lowByte w, highByte w], .mem (.absX w))]

/-- The forms of DEC, their bytes and operands (R236). -/
def decRows (b : Byte) (w : Word) : List (Instr × List Byte × ModifyArg) :=
  [(.decZp b, [0xC6#8, b], .mem (.zp b)),
   (.decZpX b, [0xD6#8, b], .mem (.zpX b)),
   (.decAbs w, [0xCE#8, lowByte w, highByte w], .mem (.abs w)),
   (.decAbsX w, [0xDE#8, lowByte w, highByte w], .mem (.absX w))]

/-- Every form of a row list is encoded by its bytes, loads its operand, and gives the registers `effect` of the operand
and the registers before; and a fault of the load ends it. -/
def LoadsThrough (rows : Byte → Word → List (Instr × List Byte × ReadArg)) (effect : Byte → Regs → Regs) : Prop :=
  ∀ (b : Byte) (w : Word) (s : State), ∀ row ∈ rows b w,
    decode row.2.1 = .ok (row.1, []) ∧
    (∀ v s1, loadRead row.2.2 (past s row.2.1.length) = .ok v s1 → exec row.1 s = .next (onRegs s1 (effect v))) ∧
    (∀ e s1, loadRead row.2.2 (past s row.2.1.length) = .fault e s1 →
      exec row.1 s = endWithFault s row.2.1.head? e s1)

/-- Every form of a row list is encoded by its bytes and makes one bus write, of the register `value`, to the effective
address; the target is not read; a fault of the write ends it. -/
def StoresThrough (rows : Byte → Word → List (Instr × List Byte × MemArg)) (value : Regs → Byte) : Prop :=
  ∀ (b : Byte) (w : Word) (s : State), ∀ row ∈ rows b w,
    decode row.2.1 = .ok (row.1, []) ∧
    ∃ ea, effectiveAddress row.2.2 (past s row.2.1.length) = .ok ea (past s row.2.1.length) ∧
      (∀ t, writeByte ea (value s.regs) (past s row.2.1.length) = .ok () t → exec row.1 s = .next t) ∧
      (∀ e t, writeByte ea (value s.regs) (past s row.2.1.length) = .fault e t →
        exec row.1 s = endWithFault s row.2.1.head? e t)

/-- Every memory form of a row list reads the byte at its effective address once, writes `result` of it and of the carry
back once, and gives `flags` of it and of the flags before; a fault of either access ends it. Every Accumulator form
does the same to A with no bus access. -/
def ModifiesThrough (rows : Byte → Word → List (Instr × List Byte × ModifyArg)) (result : Byte → Bool → Byte)
    (flags : Byte → Flags → Flags) : Prop :=
  ∀ (b : Byte) (w : Word) (s : State), ∀ row ∈ rows b w,
    decode row.2.1 = .ok (row.1, []) ∧
    (row.2.2 = .acc → exec row.1 s = .next (onRegs (past s 1) fun r =>
      { r with a := result r.a r.p.c, p := flags r.a r.p })) ∧
    (∀ m, row.2.2 = .mem m →
      ∃ ea, effectiveAddress m (past s row.2.1.length) = .ok ea (past s row.2.1.length) ∧
        (∀ v s1 t, readByte .read ea (past s row.2.1.length) = .ok v s1 →
          writeByte ea (result v s.regs.p.c) s1 = .ok () t →
          exec row.1 s = .next (onRegs t fun r => { r with p := flags v r.p })) ∧
        (∀ e t, readByte .read ea (past s row.2.1.length) = .fault e t →
          exec row.1 s = endWithFault s row.2.1.head? e t) ∧
        (∀ v s1, readByte .read ea (past s row.2.1.length) = .ok v s1 →
          (∃ t, writeByte ea (result v s.regs.p.c) s1 = .ok () t) ∨
          ∃ e t, writeByte ea (result v s.regs.p.c) s1 = .fault e t ∧ exec row.1 s = endWithFault s row.2.1.head? e t))

/-- Each instruction of a list is encoded by its one byte and changes the registers only, with PC past that byte. -/
def ChangesRegisters (rows : List (Instr × Byte × (Regs → Regs))) : Prop :=
  ∀ row ∈ rows, decode [row.2.1] = .ok (row.1, []) ∧ ∀ s, exec row.1 s = .next (onRegs (past s 1) row.2.2)

/-- The exact sum of two bytes and a carry. -/
def exactSum (a m : Byte) (c : Bool) : Nat := a.toNat + m.toNat + c.toNat

/-- The low byte of the exact sum. -/
def sumByte (a m : Byte) (c : Bool) : Byte := BitVec.ofNat 8 (exactSum a m c)

/-- The difference `a - m - (1 - c)` mod 256 (spec/43_arithmetic_logic.md R203). -/
def differenceByte (a m : Byte) (c : Bool) : Byte := a - m - BitVec.ofNat 8 (!c).toNat

/-- The flags of a compare (spec/43_arithmetic_logic.md R208). -/
def compared (r m : Byte) (p : Flags) : Flags :=
  { p with c := decide (m.toNat ≤ r.toNat), z := decide (r = m), n := (r - m).msb }

/-- Which forms write C (spec/10_state.md R30). -/
def writesC : Form → Bool
  | .read op _ => op ∈ [ReadOp.adc, .sbc, .cmp, .cpx, .cpy]
  | .modify op _ => op ∈ [ModifyOp.asl, .lsr, .rol, .ror]
  | .implied op => op ∈ [ImpliedOp.sec, .clc, .plp, .rti]
  | _ => false

/-- Which forms write Z (spec/10_state.md R30). -/
def writesZ : Form → Bool
  | .read _ _ => true
  | .modify _ _ => true
  | .implied op => op ∈ [ImpliedOp.tax, .tay, .txa, .tya, .tsx, .pla, .inx, .iny, .dex, .dey, .plp, .rti]
  | _ => false

/-- Which forms write I (spec/10_state.md R30). -/
def writesI : Form → Bool
  | .implied op => op ∈ [ImpliedOp.sei, .cli, .brk, .plp, .rti]
  | _ => false

/-- Which forms write D (spec/10_state.md R30). -/
def writesD : Form → Bool
  | .implied op => op ∈ [ImpliedOp.sed, .cld, .plp, .rti]
  | _ => false

/-- Which forms write B (spec/10_state.md R30). -/
def writesB : Form → Bool
  | .implied op => op ∈ [ImpliedOp.brk, .plp, .rti]
  | _ => false

/-- Which forms write V (spec/10_state.md R30). -/
def writesV : Form → Bool
  | .read op _ => op ∈ [ReadOp.adc, .sbc, .bit]
  | .implied op => op ∈ [ImpliedOp.clv, .plp, .rti]
  | _ => false

/-- Which forms write A (spec/10_state.md R21). -/
def writesA : Form → Bool
  | .read op _ => op ∈ [ReadOp.lda, .adc, .sbc, .and, .ora, .eor]
  | .modify op tgt => op ∈ [ModifyOp.asl, .lsr, .rol, .ror] && tgt = .acc
  | .implied op => op ∈ [ImpliedOp.txa, .tya, .pla]
  | _ => false

/-- Which forms write X (spec/10_state.md R22). -/
def writesX : Form → Bool
  | .read op _ => op = .ldx
  | .implied op => op ∈ [ImpliedOp.tax, .tsx, .inx, .dex]
  | _ => false

/-- Which forms write Y (spec/10_state.md R23). -/
def writesY : Form → Bool
  | .read op _ => op = .ldy
  | .implied op => op ∈ [ImpliedOp.tay, .iny, .dey]
  | _ => false

/-- Which forms change SP: those that use the stack, and TXS (spec/10_state.md R24). -/
def writesSP : Form → Bool
  | .call _ => true
  | .implied op => op ∈ [ImpliedOp.pha, .php, .pla, .plp, .rts, .rti, .brk, .txs]
  | _ => false

/-- The control transfers (spec/40_execution_loop.md R124). -/
def transfersControl : Form → Bool
  | .branch _ _ => true
  | .jump _ => true
  | .call _ => true
  | .implied op => op ∈ [ImpliedOp.rts, .rti, .brk]
  | _ => false

/-- How many bytes a form pushes. -/
def pushes : Form → Nat
  | .call _ => 2
  | .implied op => if op ∈ [ImpliedOp.pha, .php] then 1 else if op = .brk then 3 else 0
  | _ => 0

/-- How many bytes a form pulls. -/
def pulls : Form → Nat
  | .implied op => if op ∈ [ImpliedOp.pla, .plp] then 1 else if op = .rts then 2 else if op = .rti then 3 else 0
  | _ => 0

/-- Whether a form stores to its memory operand. -/
def storesOperand : Form → Bool
  | .write _ _ => true
  | .modify _ (.mem _) => true
  | _ => false

/-- The addresses of the data accesses and pointer reads of an instruction outside the zero page pointers, the stack and the
vectors: its operand's effective address, and the two bytes of an indirect jump's pointer. -/
def operandAddresses (i : Instr) (s : State) : List Word :=
  let ea (m : MemArg) : List Word :=
    match effectiveAddress m (past s i.length) with
    | .ok a _ => [a]
    | .fault _ _ => []
  match i.form with
  | .read _ (.mem m) => ea m
  | .write _ m => ea m
  | .modify _ (.mem m) => ea m
  | .jump (.ind p) => [p, joinBytes (highByte p) (lowByte p + 1#8)]
  | _ => []

end Sys2Proof.Claims

open Sys2Proof Sys2Proof.Machine Sys2Proof.Claims

/-! ### Encoding -/

/-- Words written out from the encodings of spec/30_encoding.md R100 and R97 decode to the instruction they stand for, one
or more of each family. -/
def Obligations.DecodesTheSpecsWords : Prop :=
  decode [0xA9#8, 0x05#8] = .ok (.ldaImm 0x05#8, []) ∧
  decode [0x85#8, 0x10#8] = .ok (.staZp 0x10#8, []) ∧
  decode [0xB5#8, 0x10#8] = .ok (.ldaZpX 0x10#8, []) ∧
  decode [0xB6#8, 0x10#8] = .ok (.ldxZpY 0x10#8, []) ∧
  decode [0xBD#8, 0x34#8, 0x12#8] = .ok (.ldaAbsX 0x1234#16, []) ∧
  decode [0x6C#8, 0xFF#8, 0x02#8] = .ok (.jmpInd 0x02FF#16, []) ∧
  decode [0xA1#8, 0x20#8] = .ok (.ldaIndX 0x20#8, []) ∧
  decode [0xB1#8, 0x20#8] = .ok (.ldaIndY 0x20#8, []) ∧
  decode [0x0A#8, 0x18#8] = .ok (.aslAcc, [0x18#8]) ∧
  decode [0xD0#8, 0xFB#8] = .ok (.bne 0xFB#8, []) ∧
  decodeTableWord 24 0x80_10_20 = some (.jsr 0x8010#16) ∧
  decodeTableWord 8 0x00 = some .brk

/-- Decode and encode agree: the bytes of every well-formed instruction, with every operand, decode to it, and the bytes
after it are left (R90 to R97). -/
def Obligations.DecodeOfEncodeIsIdentity : Prop :=
  ∀ (i : Instr) (rest : List Byte), i.wellFormed = true → decode (encode i ++ rest) = .ok (i, rest)

/-- Each byte sequence has one meaning: what decodes to an instruction is that instruction's encoding, and the rest of the
stream (R90, R106). -/
def Obligations.EncodeOfDecodeIsIdentity : Prop :=
  ∀ (bs rest : List Byte) (i : Instr), decode bs = .ok (i, rest) → encode i ++ rest = bs

/-- The opcode bytes with no instruction are exactly the 105 of R103, and decoding one fails by its name (R105, the spec's
decision D1). -/
def Obligations.UndocumentedOpcodesAreRejected : Prop :=
  undocumented.length = 105 ∧
  ∀ op : Byte, (decodeOpcode op = none ↔ op.toNat ∈ undocumented) ∧
    (op.toNat ∈ undocumented → ∀ rest, decode (op :: rest) = .error (.illegalOpcode op))

/-- The instructions are exactly the well-formed forms: each instruction's form has a mode that R154 allows its mnemonic,
every allowed form is the form of an instruction, and of one only. -/
def Obligations.InstructionsAreTheAllowedForms : Prop :=
  (∀ i : Instr, i.form.wellFormed = true) ∧
  (∀ f : Form, f.wellFormed = true → ∃ i : Instr, i.form = f) ∧
  (∀ i j : Instr, i.form = j.form → i = j)

/-! ### The bus and memory -/

/-- The five cases of the bus decode, with the local index passed on (R51). -/
def Obligations.BusDecodeHasFiveCases : Prop :=
  ∀ a : Word,
    (a.toNat < 0x2000 → ∃ i, decodeAddress a = .workRam i ∧ i.toNat = a.toNat % 0x0800) ∧
    (0x2000 ≤ a.toNat → a.toNat < 0x4000 → ∃ r, decodeAddress a = .ppuRegs r ∧ r.toNat = (a.toNat - 0x2000) % 8) ∧
    (0x4000 ≤ a.toNat → a.toNat < 0x4018 → ∃ r, decodeAddress a = .apuRegs r ∧ r.val = a.toNat - 0x4000) ∧
    (0x4018 ≤ a.toNat → a.toNat < 0x8000 → decodeAddress a = .unmapped) ∧
    (0x8000 ≤ a.toNat → decodeAddress a = .cartridge a)

/-- A write through one mirror of work RAM is done, and is seen by a read of any kind through every mirror (R54). -/
def Obligations.RamMirrorsShareOneCell : Prop :=
  ∀ (s : State) (a b : Word) (v : Byte) (k : AccessKind), s.wf = true → a.toNat < 0x2000 → b.toNat < 0x2000 →
    a.toNat % 0x0800 = b.toNat % 0x0800 →
    ∃ t, writeByte a v s = .ok () t ∧ readByte k b t = .ok v t

/-- A write that is done changes the byte stored at its own cell and no other: at a work RAM address that cell holds the byte
written, and a cartridge or device address stores nothing. Nothing else that is stored changes (R53, R54, R60). -/
def Obligations.WriteChangesOneCell : Prop :=
  ∀ (s t : State) (a : Word) (v : Byte), writeByte a v s = .ok () t →
    (∀ c, decodeAddress c ≠ decodeAddress a → t.peek c = s.peek c) ∧
    (s.wf = true → a.toNat < 0x2000 → t.peek a = some v) ∧
    (0x2000 ≤ a.toNat → ∀ c, t.peek c = s.peek c) ∧
    t.regs = s.regs ∧ t.bus.prg = s.bus.prg ∧ t.bus.mapper = s.bus.mapper ∧ t.fault = s.fault

/-- A PPU or APU access never fails: a read answers a draw and is delivered to the device's register, a write is delivered
unchanged; nothing else changes but the draw counter, which is the model's own (R55, R56, R61, R62; log 3, log 4). -/
def Obligations.DeviceAccessesAreDelivered : Prop :=
  ∀ (s : State) (a : Word) (v : Byte) (k : AccessKind),
    (∀ r, decodeAddress a = .ppuRegs r →
      readByte k a s = .ok (Config.ppuReadRegister s.bus.draws r)
        { s with bus := { s.bus with calls := .ppuRead r (Config.ppuReadRegister s.bus.draws r) :: s.bus.calls,
                                     draws := s.bus.draws + 1 } } ∧
      writeByte a v s = .ok () { s with bus := { s.bus with calls := .ppuWrite r v :: s.bus.calls } }) ∧
    (∀ r, decodeAddress a = .apuRegs r →
      readByte k a s = .ok (Config.apuReadRegister s.bus.draws r)
        { s with bus := { s.bus with calls := .apuRead r (Config.apuReadRegister s.bus.draws r) :: s.bus.calls,
                                     draws := s.bus.draws + 1 } } ∧
      writeByte a v s = .ok () { s with bus := { s.bus with calls := .apuWrite r v :: s.bus.calls } })

/-- An access to 0x4018 to 0x7FFF faults with the access kind and the address, and changes nothing (R52, R58; R53, the spec's
decision D34). -/
def Obligations.UnmappedAccessesFault : Prop :=
  ∀ (s : State) (a : Word) (v : Byte) (k : AccessKind), inHole a →
    readByte k a s = .fault ⟨.unmappedAddress, k, a, none⟩ s ∧
    writeByte a v s = .fault ⟨.unmappedAddress, .write, a, none⟩ s

/-- The reference mapper answers `prg[a - 0x8000]`, ignores writes and never fails (R60, the spec's decision D14). Another
mapper's answer is the access's value, and its failure is MapperFault with its detail; no stored byte and no register
changes either way (R59). The model's own choices: the list of delivered calls (log 4), and that another mapper's answer
is the uninterpreted constant of Config at the draw counter (log 3, log 5). -/
def Obligations.CartridgeAccessesGoToTheMapper : Prop :=
  ∀ (s : State) (a : Word) (v : Byte) (k : AccessKind), 0x8000 ≤ a.toNat →
    (s.bus.mapper = .reference →
      readByte k a s = .ok (Memory.read s.bus.prg (a.toNat - 0x8000)) s ∧ writeByte a v s = .ok () s) ∧
    (s.bus.mapper = .other →
      (match Config.otherMapperRead s.bus.draws a with
      | .ok x => ∃ t, readByte k a s = .ok x t ∧ t.regs = s.regs ∧ t.bus.ram = s.bus.ram ∧
          t.bus.calls = .mapperRead a x :: s.bus.calls
      | .error d => ∃ t, readByte k a s = .fault ⟨.mapperFault, k, a, some d⟩ t ∧ t.regs = s.regs ∧
          t.bus.ram = s.bus.ram) ∧
      (match Config.otherMapperWrite s.bus.draws a v with
      | .ok _ => ∃ t, writeByte a v s = .ok () t ∧ t.regs = s.regs ∧ t.bus.ram = s.bus.ram ∧
          t.bus.calls = .mapperWrite a v :: s.bus.calls
      | .error d => ∃ t, writeByte a v s = .fault ⟨.mapperFault, .write, a, some d⟩ t ∧ t.regs = s.regs ∧
          t.bus.ram = s.bus.ram))

/-! ### The stack unit -/

/-- `push8` writes at `0x0100 + SP`, then moves SP down mod 256; `push16` pushes the high byte, then the low byte (R70, R71);
neither faults at any SP (R69, which the spec derives, and R74). -/
def Obligations.PushesWrapAndNeverFault : Prop :=
  ∀ (s : State) (b : Byte) (w : Word),
    push8 b s = .ok () (onRegs (ramPut s (Memory.write s.bus.ram (0x0100 + s.regs.sp.toNat) b))
      fun r => { r with sp := r.sp - 1#8 }) ∧
    push16 w s = .ok () (onRegs (ramPut s (pushBytes [highByte w, lowByte w] s.regs.sp s.bus.ram))
      fun r => { r with sp := r.sp - 2#8 })

/-- `pull8` moves SP up mod 256, reads at `0x0100 + SP`, and zeroes the vacated byte only when `pullZeroesSlot` is set;
`pull16` pulls the low byte, then the high byte; neither faults at any SP (R72, R73, R74; the spec's decision D16). -/
def Obligations.PullsWrapAndNeverFault : Prop :=
  ∀ s : State,
    pull8 s = .ok (stackByte s.bus.ram (s.regs.sp + 1#8))
      (onRegs (ramPut s (pullBytes s.pullZeroesSlot 1 s.regs.sp s.bus.ram)) fun r => { r with sp := r.sp + 1#8 }) ∧
    pull16 s = .ok (joinBytes (stackByte s.bus.ram (s.regs.sp + 2#8)) (stackByte s.bus.ram (s.regs.sp + 1#8)))
      (onRegs (ramPut s (pullBytes s.pullZeroesSlot 2 s.regs.sp s.bus.ram)) fun r => { r with sp := r.sp + 2#8 })

/-- A word pushed and pulled at once comes back, and SP returns to its value, at every SP and with either setting of
`pullZeroesSlot` (R75, which the spec derives from R70 to R73). -/
def Obligations.PulledWordIsThePushedWord : Prop :=
  ∀ (s : State) (w : Word), s.wf = true →
    ∃ t u, push16 w s = .ok () t ∧ pull16 t = .ok w u ∧ u.regs = s.regs

/-! ### Addressing modes -/

/-- The effective address of each mode, with its wrap: in the zero page mod 256, pointers included, and elsewhere mod 2^16.
Resolving a memory operand never faults and changes nothing (R143 to R146, R148, R149; the wraps of the pointer's second
byte and past 0xFFFF are the spec's decisions D12 and D13). -/
def Obligations.EffectiveAddressOfEachMode : Prop :=
  ∀ (s : State) (b : Byte) (w : Word),
    effectiveAddress (.zp b) s = .ok (BitVec.ofNat 16 b.toNat) s ∧
    effectiveAddress (.zpX b) s = .ok (BitVec.ofNat 16 ((b.toNat + s.regs.x.toNat) % 256)) s ∧
    effectiveAddress (.zpY b) s = .ok (BitVec.ofNat 16 ((b.toNat + s.regs.y.toNat) % 256)) s ∧
    effectiveAddress (.abs w) s = .ok w s ∧
    effectiveAddress (.absX w) s = .ok (BitVec.ofNat 16 (w.toNat + s.regs.x.toNat)) s ∧
    effectiveAddress (.absY w) s = .ok (BitVec.ofNat 16 (w.toNat + s.regs.y.toNat)) s ∧
    effectiveAddress (.indX b) s = .ok (BitVec.ofNat 16
      ((Memory.read s.bus.ram ((b.toNat + s.regs.x.toNat) % 256)).toNat +
        256 * (Memory.read s.bus.ram ((b.toNat + s.regs.x.toNat + 1) % 256)).toNat)) s ∧
    effectiveAddress (.indY b) s = .ok (BitVec.ofNat 16
      ((Memory.read s.bus.ram b.toNat).toNat + 256 * (Memory.read s.bus.ram ((b.toNat + 1) % 256)).toNat +
        s.regs.y.toNat)) s

/-- Loading an operand yields the byte itself for Immediate, and for a memory mode the one byte read at the effective
address; it changes no register and no stored byte (R142, R153). -/
def Obligations.OperandLoadsChangeNothingStored : Prop :=
  (∀ (v : Byte) (s : State), loadRead (.imm v) s = .ok v s) ∧
  (∀ (m : MemArg) (s : State) (ea : Word), effectiveAddress m s = .ok ea s →
    loadRead (.mem m) s = readByte .read ea s) ∧
  (∀ (src : ReadArg) (s s1 : State) (v : Byte), loadRead src s = .ok v s1 →
    s1.regs = s.regs ∧ (∀ a, s1.peek a = s.peek a) ∧ s1.bus.mapper = s.bus.mapper ∧
      s1.pullZeroesSlot = s.pullZeroesSlot ∧ s1.irqLine = s.irqLine ∧ s1.nmiPending = s.nmiPending ∧
      s1.fault = s.fault ∧ s1.diag = s.diag)

/-- With the reference mapper an instruction answers a next state exactly when none of its operand addresses lies in the
unmapped range; it never faults otherwise (60_exceptions.md R307). -/
def Obligations.InstructionsCompleteOffTheHole : Prop :=
  ∀ (i : Instr) (s : State), s.bus.mapper = .reference →
    ((∃ t, exec i s = .next t) ↔ ∀ a ∈ operandAddresses i s, ¬ inHole a)

/-! ### Loads, stores, transfers, stack transfers -/

/-- LDA, LDX and LDY put the operand into their register and set N and Z from it (R170 to R172). -/
def Obligations.LoadsSetRegisterAndNZ : Prop :=
  LoadsThrough ldaRows (fun v r => { r with a := v, p := nz r.p v }) ∧
  LoadsThrough ldxRows (fun v r => { r with x := v, p := nz r.p v }) ∧
  LoadsThrough ldyRows (fun v r => { r with y := v, p := nz r.p v })

/-- STA, STX and STY write their register to the effective address and change no flag (R173 to R175). -/
def Obligations.StoresWriteTheirRegister : Prop :=
  StoresThrough staRows Regs.a ∧ StoresThrough stxRows Regs.x ∧ StoresThrough styRows Regs.y

/-- The six register transfers; TXS sets no flag (R176 to R181). -/
def Obligations.TransfersCopyRegisters : Prop :=
  ChangesRegisters
    [(.tax, 0xAA#8, fun r => { r with x := r.a, p := nz r.p r.a }),
     (.tay, 0xA8#8, fun r => { r with y := r.a, p := nz r.p r.a }),
     (.txa, 0x8A#8, fun r => { r with a := r.x, p := nz r.p r.x }),
     (.tya, 0x98#8, fun r => { r with a := r.y, p := nz r.p r.y }),
     (.tsx, 0xBA#8, fun r => { r with x := r.sp, p := nz r.p r.sp }),
     (.txs, 0x9A#8, fun r => { r with sp := r.x })]

/-- PHA pushes A; PHP pushes the status byte with bit 5 = 1 and the stored B in bit 4 (R182, R183; the spec's decisions D3
and D4). -/
def Obligations.PhaAndPhpPushOneByte : Prop :=
  decode [0x48#8] = .ok (.pha, []) ∧ decode [0x08#8] = .ok (.php, []) ∧
  ∀ s : State,
    exec .pha s = .next (onRegs (ramPut (past s 1) (pushBytes [s.regs.a] s.regs.sp s.bus.ram))
      fun r => { r with sp := r.sp - 1#8 }) ∧
    exec .php s = .next (onRegs (ramPut (past s 1) (pushBytes [statusByte s.regs.p] s.regs.sp s.bus.ram))
      fun r => { r with sp := r.sp - 1#8 })

/-- PLA pulls A and sets N and Z; PLP loads all seven flags from the pulled byte and ignores bit 5 (R184, R185; the spec's
decisions D3 and D16). -/
def Obligations.PlaAndPlpPullOneByte : Prop :=
  decode [0x68#8] = .ok (.pla, []) ∧ decode [0x28#8] = .ok (.plp, []) ∧
  ∀ s : State,
    let v := stackByte s.bus.ram (s.regs.sp + 1#8)
    let m := pullBytes s.pullZeroesSlot 1 s.regs.sp s.bus.ram
    exec .pla s = .next (onRegs (ramPut (past s 1) m) fun r => { r with sp := r.sp + 1#8, a := v, p := nz r.p v }) ∧
    exec .plp s = .next (onRegs (ramPut (past s 1) m) fun r => { r with sp := r.sp + 1#8, p := flagsOf v })

/-! ### Arithmetic, logic, compare -/

/-- ADC: A is the low byte of the exact sum, C its bit 8, V set when the operands' signs match and differ from the result's,
N and Z from the result (R200, R202). -/
def Obligations.AdcAddsWithCarry : Prop :=
  LoadsThrough adcRows fun m r =>
    let s := sumByte r.a m r.p.c
    { r with
      a := s
      p := { nz r.p s with
             c := decide (256 ≤ exactSum r.a m r.p.c)
             v := decide (r.a.msb = m.msb) && decide (s.msb ≠ r.a.msb) } }

/-- SBC: A is `A - m - (1 - C)`, C says that no borrow occurred, V is set when the signs of A and of the complement of m
match and differ from the result's, N and Z from the result (R203; the borrow form of C is the spec's own derivation from
R200). -/
def Obligations.SbcSubtractsWithBorrow : Prop :=
  LoadsThrough sbcRows fun m r =>
    let d := differenceByte r.a m r.p.c
    { r with
      a := d
      p := { nz r.p d with
             c := decide (m.toNat + (!r.p.c).toNat ≤ r.a.toNat)
             v := decide (r.a.msb ≠ m.msb) && decide (d.msb ≠ r.a.msb) } }

/-- AND, ORA and EOR put the bitwise result into A and set N and Z from it (R204 to R206). -/
def Obligations.LogicCombinesIntoA : Prop :=
  LoadsThrough andRows (fun m r => { r with a := r.a &&& m, p := nz r.p (r.a &&& m) }) ∧
  LoadsThrough oraRows (fun m r => { r with a := r.a ||| m, p := nz r.p (r.a ||| m) }) ∧
  LoadsThrough eorRows (fun m r => { r with a := r.a ^^^ m, p := nz r.p (r.a ^^^ m) })

/-- BIT: Z from `A & m`, N and V from bits 7 and 6 of m; A unchanged (R207). -/
def Obligations.BitTestsTheOperand : Prop :=
  LoadsThrough bitRows fun m r =>
    { r with p := { r.p with z := decide (r.a &&& m = 0x00#8), n := m.getLsbD 7, v := m.getLsbD 6 } }

/-- CMP, CPX and CPY: C from the unsigned comparison, Z from equality, N from the difference; no register and not V (R208 to
R211). -/
def Obligations.ComparesSetFlagsOnly : Prop :=
  LoadsThrough cmpRows (fun m r => { r with p := compared r.a m r.p }) ∧
  LoadsThrough cpxRows (fun m r => { r with p := compared r.x m r.p }) ∧
  LoadsThrough cpyRows (fun m r => { r with p := compared r.y m r.p })

/-- V of ADC says that the exact signed sum is no signed byte, and V of SBC that the exact signed difference is none (R212,
which the spec derives from R200). -/
def Obligations.OverflowIsTheSignedRange : Prop :=
  ∀ (m : Byte) (s : State), ∃ t u,
    exec (.adcImm m) s = .next t ∧ exec (.sbcImm m) s = .next u ∧
    (t.regs.p.v = true ↔
      (s.regs.a.toInt + m.toInt + s.regs.p.c.toNat < -128 ∨ 127 < s.regs.a.toInt + m.toInt + s.regs.p.c.toNat)) ∧
    (u.regs.p.v = true ↔
      (s.regs.a.toInt - m.toInt - (!s.regs.p.c).toNat < -128 ∨ 127 < s.regs.a.toInt - m.toInt - (!s.regs.p.c).toNat))

/-- The inverse law as the spec corrects it: ADC m then SBC m with carry-in `cs` restores A exactly when `cs` is the
complement of ADC's carry-in (R213, spec/90_conflicts.md C1). -/
def Obligations.SbcUndoesAdcIffCarryFlipped : Prop :=
  ∀ (m : Byte) (s : State) (cs : Bool), ∃ t u,
    exec (.adcImm m) s = .next t ∧
    exec (.sbcImm m) (onRegs t fun r => { r with p := { r.p with c := cs } }) = .next u ∧
    (u.regs.a = s.regs.a ↔ cs = !s.regs.p.c)

/-- D has no effect on any form of ADC or SBC: with D set to anything, the next state is the same but for D (R201, the spec's
decision D2). The two runs start at the same draw counter, so a device or another mapper answers both with the same byte:
that is the model's choice (log 3, log 5). -/
def Obligations.DecimalFlagIsInert : Prop :=
  ∀ (b : Byte) (w : Word) (s t : State) (d : Bool), ∀ row ∈ adcRows b w ++ sbcRows b w,
    exec row.1 s = .next t →
    exec row.1 (onRegs s fun r => { r with p := { r.p with d := d } }) =
      .next (onRegs t fun r => { r with p := { r.p with d := d } })

/-! ### Shifts, increments, decrements -/

/-- ASL, LSR, ROL and ROR, on A and on memory: the bit shifted off goes to C, the vacated bit is 0 or the previous C, N and Z
come from the result (R230 to R234). -/
def Obligations.ShiftsAndRotates : Prop :=
  ModifiesThrough aslRows (fun v _ => BitVec.ofNat 8 (2 * v.toNat))
    (fun v p => nz { p with c := v.msb } (BitVec.ofNat 8 (2 * v.toNat))) ∧
  ModifiesThrough lsrRows (fun v _ => BitVec.ofNat 8 (v.toNat / 2))
    (fun v p => nz { p with c := v.getLsbD 0 } (BitVec.ofNat 8 (v.toNat / 2))) ∧
  ModifiesThrough rolRows (fun v c => BitVec.ofNat 8 (2 * v.toNat + c.toNat))
    (fun v p => nz { p with c := v.msb } (BitVec.ofNat 8 (2 * v.toNat + p.c.toNat))) ∧
  ModifiesThrough rorRows (fun v c => BitVec.ofNat 8 (v.toNat / 2 + 128 * c.toNat))
    (fun v p => nz { p with c := v.getLsbD 0 } (BitVec.ofNat 8 (v.toNat / 2 + 128 * p.c.toNat)))

/-- INC and DEC on memory wrap mod 256 and set N and Z only (R230, R235, R236). -/
def Obligations.IncAndDecMemory : Prop :=
  ModifiesThrough incRows (fun v _ => BitVec.ofNat 8 (v.toNat + 1)) (fun v p => nz p (BitVec.ofNat 8 (v.toNat + 1))) ∧
  ModifiesThrough decRows (fun v _ => BitVec.ofNat 8 (v.toNat + 255)) (fun v p => nz p (BitVec.ofNat 8 (v.toNat + 255)))

/-- INX, INY, DEX and DEY wrap mod 256 and set N and Z only (R237 to R240). -/
def Obligations.IncAndDecRegisters : Prop :=
  ChangesRegisters
    [(.inx, 0xE8#8, fun r => { r with x := r.x + 1#8, p := nz r.p (r.x + 1#8) }),
     (.iny, 0xC8#8, fun r => { r with y := r.y + 1#8, p := nz r.p (r.y + 1#8) }),
     (.dex, 0xCA#8, fun r => { r with x := r.x - 1#8, p := nz r.p (r.x - 1#8) }),
     (.dey, 0x88#8, fun r => { r with y := r.y - 1#8, p := nz r.p (r.y - 1#8) })]

/-! ### Control flow -/

/-- The eight branches: PC is `opaddr + 2`, plus the signed offset when the condition holds, mod 2^16; nothing else changes,
and the target is not read (R250 to R259). -/
def Obligations.BranchesFollowTheirFlag : Prop :=
  ∀ (d : Byte) (s : State),
    let p := s.regs.p
    ∀ row ∈ ([(.bcc d, 0x90#8, !p.c), (.bcs d, 0xB0#8, p.c), (.beq d, 0xF0#8, p.z), (.bmi d, 0x30#8, p.n),
              (.bne d, 0xD0#8, !p.z), (.bpl d, 0x10#8, !p.n), (.bvc d, 0x50#8, !p.v), (.bvs d, 0x70#8, p.v)] :
              List (Instr × Byte × Bool)),
      decode [row.2.1, d] = .ok (row.1, []) ∧
      exec row.1 s = .next (onRegs s fun r =>
        { r with pc := if row.2.2 then BitVec.ofInt 16 (r.pc.toNat + 2 + d.toInt) else r.pc + 2#16 })

/-- JMP Abs goes to its operand; JMP Ind goes to the word at its pointer, whose high byte comes from the pointer's own page
(`($xxFF)` reads `$xx00`); a fault of a pointer read ends it (R145, R147, R260). -/
def Obligations.JumpsWithThePageBug : Prop :=
  ∀ (w : Word) (s : State),
    decode [0x4C#8, lowByte w, highByte w] = .ok (.jmpAbs w, []) ∧
    decode [0x6C#8, lowByte w, highByte w] = .ok (.jmpInd w, []) ∧
    exec (.jmpAbs w) s = .next (onRegs s fun r => { r with pc := w }) ∧
    let second : Word := BitVec.ofNat 16 (w.toNat / 256 * 256 + (w.toNat + 1) % 256)
    (∀ tl s1 th s2, readByte .read w (past s 3) = .ok tl s1 → readByte .read second s1 = .ok th s2 →
      exec (.jmpInd w) s = .next (onRegs s2 fun r => { r with pc := BitVec.ofNat 16 (th.toNat * 256 + tl.toNat) })) ∧
    (∀ e s1, readByte .read w (past s 3) = .fault e s1 → exec (.jmpInd w) s = endWithFault s (some 0x6C#8) e s1) ∧
    (∀ tl s1 e s2, readByte .read w (past s 3) = .ok tl s1 → readByte .read second s1 = .fault e s2 →
      exec (.jmpInd w) s = endWithFault s (some 0x6C#8) e s2)

/-- JSR pushes `opaddr + 2`, the address of its last byte, high byte first, and goes to its operand (R262, the spec's
decision D5). -/
def Obligations.JsrPushesItsLastAddress : Prop :=
  ∀ (w : Word) (s : State),
    decode [0x20#8, lowByte w, highByte w] = .ok (.jsr w, []) ∧
    let ret := s.regs.pc + 2#16
    exec (.jsr w) s = .next (onRegs (ramPut s (pushBytes [highByte ret, lowByte ret] s.regs.sp s.bus.ram))
      fun r => { r with sp := r.sp - 2#8, pc := w })

/-- RTS pulls a word, low byte first, and goes to the address after it (R263; the spec's decision D16). -/
def Obligations.RtsReturnsPastTheWord : Prop :=
  decode [0x60#8] = .ok (.rts, []) ∧
  ∀ s : State,
    let m := s.bus.ram
    exec .rts s = .next (onRegs (ramPut s (pullBytes s.pullZeroesSlot 2 s.regs.sp m)) fun r =>
      { r with
        sp := r.sp + 2#8
        pc := joinBytes (stackByte m (r.sp + 2#8)) (stackByte m (r.sp + 1#8)) + 1#16 })

/-- RTI pulls the status, all seven flags from it, and then the exact PC (R264; the spec's decisions D3, D7 and D16). -/
def Obligations.RtiRestoresFlagsAndPc : Prop :=
  decode [0x40#8] = .ok (.rti, []) ∧
  ∀ s : State,
    let m := s.bus.ram
    exec .rti s = .next (onRegs (ramPut s (pullBytes s.pullZeroesSlot 3 s.regs.sp m)) fun r =>
      { r with
        sp := r.sp + 3#8
        p := flagsOf (stackByte m (r.sp + 1#8))
        pc := joinBytes (stackByte m (r.sp + 3#8)) (stackByte m (r.sp + 2#8)) })

/-- BRK sets B, pushes `opaddr + 2` and the status with bits 4 and 5 set, sets I, leaves D, and goes to the word at
0xFFFE/0xFFFF. If another mapper fails on a vector byte, the pushes stay and the step faults with the registers as
before (R265, R303; the spec's decisions D6, D10 and D32). That another mapper's two answers are those of Config at the draws
`draws` and `draws + 1` is the model's choice (log 3, log 5). -/
def Obligations.BrkGoesThroughTheVector : Prop :=
  decode [0x00#8] = .ok (.brk, []) ∧
  ∀ s : State,
    let ret := s.regs.pc + 2#16
    let pushed := pushBytes [highByte ret, lowByte ret, statusByte { s.regs.p with b := true }] s.regs.sp s.bus.ram
    (s.bus.mapper = .reference →
      exec .brk s = .next (onRegs (ramPut s pushed) fun r =>
        { r with
          sp := r.sp - 3#8
          p := { r.p with b := true, i := true }
          pc := joinBytes (Memory.read s.bus.prg 0x7FFF) (Memory.read s.bus.prg 0x7FFE) })) ∧
    (s.bus.mapper = .other →
      match Config.otherMapperRead s.bus.draws 0xFFFE#16 with
      | .error d => ∃ r t, exec .brk s = .fault (.mapperFault r t) ∧ r.access = .read ∧ r.address = 0xFFFE#16 ∧
          r.opcode = some 0x00#8 ∧ r.detail = some d ∧ t.regs = s.regs ∧ t.bus.ram = pushed
      | .ok lo =>
        match Config.otherMapperRead (s.bus.draws + 1) 0xFFFF#16 with
        | .error d => ∃ r t, exec .brk s = .fault (.mapperFault r t) ∧ r.access = .read ∧ r.address = 0xFFFF#16 ∧
            r.opcode = some 0x00#8 ∧ r.detail = some d ∧ t.regs = s.regs ∧ t.bus.ram = pushed
        | .ok hi => ∃ t, exec .brk s = .next t ∧ t.bus.ram = pushed ∧
            t.regs = { s.regs with
              sp := s.regs.sp - 3#8
              p := { s.regs.p with b := true, i := true }
              pc := joinBytes hi lo })

/-- RTS after JSR returns to the instruction after the JSR, with SP and the flags as before (R262, R263, R75; the spec's
decision D5). -/
def Obligations.RtsUndoesJsr : Prop :=
  ∀ (w : Word) (s : State), s.wf = true →
    ∃ t u, exec (.jsr w) s = .next t ∧ exec .rts t = .next u ∧
      u.regs = { s.regs with pc := s.regs.pc + 3#16 }

/-- RTI after BRK resumes two bytes past the BRK, with SP and every flag as before but B, which the pushed status holds as 1
(R264, R265, R315; the spec's decisions D3, D6 and D7). -/
def Obligations.RtiUndoesBrk : Prop :=
  ∀ s : State, s.wf = true → s.bus.mapper = .reference →
    ∃ t u, exec .brk s = .next t ∧ exec .rti t = .next u ∧
      u.regs = { s.regs with pc := s.regs.pc + 2#16, p := { s.regs.p with b := true } }

/-- The seven flag instructions write their one flag, and NOP writes nothing; PC passes one byte (R280 to R287). -/
def Obligations.FlagInstructionsAndNop : Prop :=
  ChangesRegisters
    [(.clc, 0x18#8, fun r => { r with p := { r.p with c := false } }),
     (.cld, 0xD8#8, fun r => { r with p := { r.p with d := false } }),
     (.cli, 0x58#8, fun r => { r with p := { r.p with i := false } }),
     (.clv, 0xB8#8, fun r => { r with p := { r.p with v := false } }),
     (.sec, 0x38#8, fun r => { r with p := { r.p with c := true } }),
     (.sed, 0xF8#8, fun r => { r with p := { r.p with d := true } }),
     (.sei, 0x78#8, fun r => { r with p := { r.p with i := true } }),
     (.nop, 0xEA#8, fun r => r)]

/-! ### Frames and writers, over every instruction -/

/-- No instruction changes a register it is not listed as writing: the written-by sets of R21 to R24. -/
def Obligations.RegistersChangeOnlyByTheirWriters : Prop :=
  ∀ (i : Instr) (s t : State), exec i s = .next t →
    (t.regs.a ≠ s.regs.a → writesA i.form = true) ∧
    (t.regs.x ≠ s.regs.x → writesX i.form = true) ∧
    (t.regs.y ≠ s.regs.y → writesY i.form = true) ∧
    (t.regs.sp ≠ s.regs.sp → writesSP i.form = true)

/-- No instruction changes a flag it is not listed as writing: the written-by column of R30, which the spec derives. -/
def Obligations.FlagsChangeOnlyByTheirWriters : Prop :=
  ∀ (i : Instr) (s t : State), exec i s = .next t →
    (t.regs.p.c ≠ s.regs.p.c → writesC i.form = true) ∧
    (t.regs.p.z ≠ s.regs.p.z → writesZ i.form = true) ∧
    (t.regs.p.n ≠ s.regs.p.n → writesZ i.form = true) ∧
    (t.regs.p.i ≠ s.regs.p.i → writesI i.form = true) ∧
    (t.regs.p.d ≠ s.regs.p.d → writesD i.form = true) ∧
    (t.regs.p.b ≠ s.regs.p.b → writesB i.form = true) ∧
    (t.regs.p.v ≠ s.regs.p.v → writesV i.form = true)

/-- After an instruction that is no control transfer, PC is `opaddr + length` mod 2^16, with the length of its encoding
(R124). -/
def Obligations.PcPassesTheInstruction : Prop :=
  ∀ (i : Instr) (s t : State), exec i s = .next t → transfersControl i.form = false →
    t.regs.pc = s.regs.pc + BitVec.ofNat 16 (encode i).length

/-- An instruction that neither stores to its operand, nor pushes, nor zeroes a pulled slot leaves every stored byte as it
was (R68, the spec's decision D15). -/
def Obligations.OtherInstructionsStoreNothing : Prop :=
  ∀ (i : Instr) (s t : State), exec i s = .next t → storesOperand i.form = false → pushes i.form = 0 →
    (pulls i.form = 0 ∨ s.pullZeroesSlot = false) → ∀ a, t.peek a = s.peek a

/-- A store or a read-modify-write on memory changes the byte at its operand's effective address and no other stored byte,
and A, X, Y and SP not at all; a store changes no flag (R173 to R175, R230). -/
def Obligations.StoresChangeOnlyTheirOperand : Prop :=
  ∀ (i : Instr) (m : MemArg) (s t : State) (ea : Word),
    ((∃ op, i.form = .write op m) ∨ (∃ op, i.form = .modify op (.mem m))) →
    effectiveAddress m (past s i.length) = .ok ea (past s i.length) → exec i s = .next t →
    (∀ a, decodeAddress a ≠ decodeAddress ea → t.peek a = s.peek a) ∧
    t.regs.a = s.regs.a ∧ t.regs.x = s.regs.x ∧ t.regs.y = s.regs.y ∧ t.regs.sp = s.regs.sp ∧
    ((∃ op, i.form = .write op m) → t.regs.p = s.regs.p)

/-- An instruction that uses the stack changes no stored byte outside the slots it pushes to, or pulls from: `n` pushes use
`0x0100 + SP` down to `0x0100 + SP - (n - 1)`, `n` pulls `0x0100 + SP + 1` up to `0x0100 + SP + n`, SP mod 256 (R70 to R74).
A pulled slot changes only with `pullZeroesSlot`. -/
def Obligations.StackInstructionsChangeOnlyTheirSlots : Prop :=
  ∀ (i : Instr) (s t : State) (a : Word), exec i s = .next t → 0 < pushes i.form + pulls i.form →
    (∀ k, k < pushes i.form →
      decodeAddress a ≠ decodeAddress (BitVec.ofNat 16 (0x0100 + (s.regs.sp - BitVec.ofNat 8 k).toNat))) →
    (∀ k, k < pulls i.form →
      decodeAddress a ≠ decodeAddress (BitVec.ofNat 16 (0x0100 + (s.regs.sp + 1#8 + BitVec.ofNat 8 k).toNat))) →
    t.peek a = s.peek a

/-- No instruction changes the program bank, the mapper, the parameters, the latches or the last diagnostic record, and none
withdraws a call delivered to a collaborator (R36, R37, R60, R62). The model's own choices: `pullZeroesSlot` is a field
that no step changes (log 6), no step changes the IRQ line (log 7), the calls are kept in a list (log 4), and the
diagnostic record is set by the step, not by the instruction (log 10). -/
def Obligations.InstructionsLeaveTheRestOfTheState : Prop :=
  ∀ (i : Instr) (s t : State), exec i s = .next t →
    t.bus.prg = s.bus.prg ∧ t.bus.mapper = s.bus.mapper ∧ t.pullZeroesSlot = s.pullZeroesSlot ∧
    t.irqLine = s.irqLine ∧ t.nmiPending = s.nmiPending ∧ t.fault = s.fault ∧ t.diag = s.diag ∧
    ∃ new, t.bus.calls = new ++ s.bus.calls

/-! ### The step -/

/-- When the bytes fetched at PC decode to an instruction, the step is that instruction's meaning at this boundary, on the bus
as the fetches left it; the step adds only the diagnostic record of R42 (R120 to R123; log 10, log 12). -/
def Obligations.StepRunsTheDecodedInstruction : Prop :=
  ∀ (s s1 : State) (bs : List Byte) (i : Instr), runsInstruction s →
    fetchSequence bs.length s.regs.pc s = .ok bs s1 → decode bs = .ok (i, []) →
    s1.regs = s.regs ∧ (∀ a, s1.peek a = s.peek a) ∧
    (∀ t, exec i s1 = .next t → step s = .next { t with
      diag := some { snapshot := snapshotOf t.regs, opaddr := s.regs.pc, opcode := bs.head? } }) ∧
    (∀ f, exec i s1 = .fault f → step s = .fault f)

/-- Every step keeps the memories in canonical form with every index in range, and a step that faults leaves them so: the
model's invariant. -/
def Obligations.StepKeepsMemoryCanonical : Prop :=
  ∀ s : State, s.wf = true →
    (∀ t, step s = .next t → t.wf = true) ∧
    (∀ f r t, step s = .fault f → f = Fault.report r t → t.wf = true)

/-- The state after reset is well formed, and its registers are those of R40: A, X, Y and every flag zero, SP = 0xFD, all
RAM 0xFF, no fault, no NMI. (Its PC rests on the model's choice of an empty program bank, log 1.) -/
def Obligations.ResetStateIsAsPowerLeavesIt : Prop :=
  State.reset.wf = true ∧ State.reset.regs.a = 0x00#8 ∧ State.reset.regs.x = 0x00#8 ∧ State.reset.regs.y = 0x00#8 ∧
  State.reset.regs.sp = 0xFD#8 ∧ State.reset.regs.p = flagsOf 0x00#8 ∧
  (∀ a : Word, a.toNat < 0x2000 → State.reset.peek a = some 0xFF#8) ∧
  State.reset.fault = none ∧ State.reset.nmiPending = false ∧ State.reset.power = State.reset

/-- No step changes the program bank, the mapper, `pullZeroesSlot` or the IRQ line, whether it completes or faults: code in
the reference mapper's ROM cannot be modified (R60, R348; the spec's decisions D14 and D29), and only the host swaps the
mapper (R59, the spec's decision D28). That no step changes `pullZeroesSlot` or the IRQ line is the model's reading (log 6,
log 7). -/
def Obligations.StepKeepsTheProgramBank : Prop :=
  ∀ (s t : State), (step s = .next t ∨ ∃ f r, step s = .fault f ∧ f = Fault.report r t) →
    t.bus.prg = s.bus.prg ∧ t.bus.mapper = s.bus.mapper ∧ t.pullZeroesSlot = s.pullZeroesSlot ∧ t.irqLine = s.irqLine

/-- A fault leaves the registers and flags as at the start of the step, latches a record that names opaddr and holds their
snapshot, and the next step changes nothing and reports the same record (R303 to R305, the spec's decision D10; log 8). -/
def Obligations.FaultsArePreciseAndSticky : Prop :=
  ∀ (s : State) (f : Fault), s.fault = none → step s = .fault f →
    ∃ r t, f = Fault.report r t ∧ t.regs = s.regs ∧ t.fault = some r ∧ r.opaddr = s.regs.pc ∧
      r.snapshot = snapshotOf s.regs ∧ step t = .fault f

/-- An instruction that faults, other than BRK, has changed no stored byte: only BRK and interrupt entry can write before a
later access faults (R303, the spec's decision D10). -/
def Obligations.OnlyBrkWritesBeforeAFault : Prop :=
  ∀ (i : Instr) (s : State) (f : Fault), exec i s = .fault f → i ≠ .brk →
    ∃ r t, f = Fault.report r t ∧ ∀ a, t.peek a = s.peek a

/-- The faults of fetching and decoding. A fetch in 0x4018 to 0x7FFF raises UnmappedAddress with no opcode in its record; an
undocumented opcode raises IllegalOpcode with the opcode and opaddr, whichever target it was read from; a fault of any
opcode fetch has no opcode in its record, and one of an operand-byte fetch has the opcode and the operand's address;
none changes a register (R105, R121, R141, R300 to R302, R305; the spec's decisions D1, D10 and D17). -/
def Obligations.FetchFaults : Prop :=
  ∀ s : State, runsInstruction s →
    (inHole s.regs.pc → step s = .fault (.unmappedAddress
      { kind := .unmappedAddress, access := .fetch, address := s.regs.pc, opcode := none, opaddr := s.regs.pc,
        snapshot := snapshotOf s.regs, detail := none }
      { s with fault := some { kind := .unmappedAddress, access := .fetch, address := s.regs.pc, opcode := none,
                               opaddr := s.regs.pc, snapshot := snapshotOf s.regs, detail := none } })) ∧
    (∀ op, s.peek s.regs.pc = some op → op.toNat ∈ undocumented → step s = .fault (.illegalOpcode
      { kind := .illegalOpcode, access := .fetch, address := s.regs.pc, opcode := some op, opaddr := s.regs.pc,
        snapshot := snapshotOf s.regs, detail := none }
      { s with fault := some { kind := .illegalOpcode, access := .fetch, address := s.regs.pc, opcode := some op,
                               opaddr := s.regs.pc, snapshot := snapshotOf s.regs, detail := none } })) ∧
    (match readByte .fetch s.regs.pc s with
    | .fault e t => EndsWithFetchFault s none s.regs.pc e t
    | .ok op u =>
      (op.toNat ∈ undocumented → step s = .fault (.illegalOpcode
        { kind := .illegalOpcode, access := .fetch, address := s.regs.pc, opcode := some op, opaddr := s.regs.pc,
          snapshot := snapshotOf s.regs, detail := none }
        { u with fault := some { kind := .illegalOpcode, access := .fetch, address := s.regs.pc, opcode := some op,
                                 opaddr := s.regs.pc, snapshot := snapshotOf s.regs, detail := none } })) ∧
      (op.toNat ∉ undocumented → ∃ i : Instr, (encode i).head? = some op) ∧
      (∀ i : Instr, (encode i).head? = some op →
        OperandFetchFaultsEnd s op ((encode i).length - 1) (s.regs.pc + 1#16) u))

/-- Interrupt entry: a pending NMI first, whatever I is; else an IRQ on the line if I = 0. One step pushes PC and the status
with bit 4 = 0, sets I, keeps every other flag, and loads PC from the vector; the NMI latch is clear after it. If another
mapper fails on a vector byte: MapperFault, the pushes kept, the registers as before, no opcode in the record (R303, R305,
R310 to R314; the spec's decisions D8, D9, D10, D26, D32 and D33). The model's own choices: opaddr of the diagnostic record
is PC at the boundary (log 10), and another mapper's two answers are those of Config at the draws `draws` and `draws + 1`
(log 3, log 5). -/
def Obligations.InterruptEntryAtTheBoundary : Prop :=
  ∀ s : State, s.fault = none →
    (s.nmiPending = true → EntersThrough 0xFFFA#16 s) ∧
    (s.nmiPending = false → s.irqLine = true → s.regs.p.i = false → EntersThrough 0xFFFE#16 s)

/-- RTI in the handler's first instruction after an NMI resumes the interrupted program: PC, SP and every flag as at the
boundary, but B, which the pushed status holds as 0 (R312, R315; the spec's decisions D3, D7 and D8). -/
def Obligations.RtiUndoesInterruptEntry : Prop :=
  ∀ s : State, s.wf = true → s.fault = none → s.bus.mapper = .reference →
    (s.nmiPending = true ∨ (s.irqLine = true ∧ s.regs.p.i = false)) →
    ∃ t u, step s = .next t ∧ exec .rti t = .next u ∧
      u.regs = { s.regs with p := { s.regs.p with b := false } }

/-- `power()` from any state, the faulted state included: latches empty, RAM all 0xFF, registers and flags zero, SP = 0xFD, PC
the word at 0xFFFC/0xFFFD. It returns nothing to the host, or the fault of the vector read: if another mapper fails on a
vector byte the fault is latched and returned, PC stays 0x0000, and the next step reports it again (R128, R340 to R344; the
spec's decision D36). Attaching a mapper and the `power()` after it is `power()` with that mapper (log 14). The model's own
choices: the diagnostic record is empty afterwards (log 10), the rest is kept (log 11), and another mapper's two answers
are those of Config at the draws `draws` and `draws + 1` (log 3, log 5). -/
def Obligations.PowerResetsTheCore : Prop :=
  ∀ s : State,
    let zeroed (pc : Word) : Regs :=
      { a := 0x00#8, x := 0x00#8, y := 0x00#8, sp := 0xFD#8, pc := pc, p := flagsOf 0x00#8 }
    (∀ m prg, hostAct (.attachMapperAndPower m prg) s =
      hostAct .power { s with bus := { s.bus with mapper := m, prg := prg } }) ∧
    (s.bus.mapper = .reference → hostAct .power s = .next s.power ∧ s.power =
      { s with
        regs := zeroed (bankWord s.bus.prg 0xFFFC#16)
        bus := { s.bus with ram := [] }
        nmiPending := false
        fault := none
        diag := none }) ∧
    (s.bus.mapper = .other →
      s.power.bus.ram = [] ∧ s.power.nmiPending = false ∧ s.power.diag = none ∧ s.power.bus.prg = s.bus.prg ∧
      s.power.bus.mapper = .other ∧ s.power.pullZeroesSlot = s.pullZeroesSlot ∧ s.power.irqLine = s.irqLine ∧
      match answeredWord s.bus.draws 0xFFFC#16 with
      | .error (a, d) => ∃ r, s.power.fault = some r ∧ r.kind = .mapperFault ∧ r.access = .read ∧ r.address = a ∧
          r.opcode = none ∧ r.detail = some d ∧ r.snapshot = snapshotOf (zeroed 0x0000#16) ∧
          s.power.regs = zeroed 0x0000#16 ∧ hostAct .power s = .fault (.mapperFault r s.power) ∧
          step s.power = .fault (.mapperFault r s.power)
      | .ok pc => s.power.fault = none ∧ s.power.regs = zeroed pc ∧ hostAct .power s = .next s.power)

/-- The end of a run (R127, the spec's decision D18): a latched fault is a faulted end; where bytes are stored, a JMP to its
own address is a success. At that JMP the core does not stop: the step completes, the registers and every stored byte are
as before, and no interrupt and no fault is there to be taken at the next step either. Where bytes are stored, that is for
ever: the bus is as before, and the core is at the same self-loop again. With another mapper, whose answers may change, the
self-loop is recognised in cartridge space exactly when the mapper answers its three bytes at the next draws, which is the
model's choice (log 17, log 3, log 5). -/
def Obligations.SelfLoopStaysWhereItIs : Prop :=
  ∀ s : State,
    (s.fault ≠ none → runEnd s = some .faulted) ∧
    (s.fault = none → s.peek s.regs.pc = some 0x4C#8 → s.peek (s.regs.pc + 1#16) = some (lowByte s.regs.pc) →
      s.peek (s.regs.pc + 2#16) = some (highByte s.regs.pc) → runEnd s = some .selfLoop) ∧
    (s.fault = none → s.bus.mapper = .other → 0x8000 ≤ s.regs.pc.toNat → s.regs.pc.toNat ≤ 0xFFFD →
      (runEnd s = some .selfLoop ↔
        Config.otherMapperRead s.bus.draws s.regs.pc = .ok 0x4C#8 ∧
        Config.otherMapperRead (s.bus.draws + 1) (s.regs.pc + 1#16) = .ok (lowByte s.regs.pc) ∧
        Config.otherMapperRead (s.bus.draws + 2) (s.regs.pc + 2#16) = .ok (highByte s.regs.pc))) ∧
    (runsInstruction s → runEnd s = some .selfLoop →
      ∃ t, step s = .next t ∧ t.regs = s.regs ∧ (∀ a, t.peek a = s.peek a) ∧ runsInstruction t ∧
        ((∀ k : Nat, k < 3 → s.peek (s.regs.pc + BitVec.ofNat 16 k) ≠ none) →
          t.bus = s.bus ∧ runEnd t = some .selfLoop))
end

