-- ==== Sys2Proof/Laws/Memory.lean ====
section
/-! SUPPORT. The laws of `Memory`: read after write, the canonical form kept by a write, and equal memories as equal
lists. -/

namespace Sys2Proof.Machine

theorem Memory.read_of_wfFrom_of_lt {m : Memory} {low a : Nat} (h : Memory.wfFrom low m = true) (ha : a < low) :
    Memory.read m a = Memory.unlisted := by
  induction m generalizing low with
  | nil => rfl
  | cons cell rest ih =>
    obtain ⟨k, v⟩ := cell
    simp only [Memory.wfFrom, Bool.and_eq_true, decide_eq_true_eq] at h
    have hne : a ≠ k := by omega
    simp only [Memory.read, hne, if_false]
    exact ih h.2 (by omega)

theorem Memory.wfFrom_mono {m : Memory} {low low' : Nat} (h : Memory.wfFrom low m = true) (hl : low' ≤ low) :
    Memory.wfFrom low' m = true := by
  cases m with
  | nil => rfl
  | cons cell rest =>
    simp only [Memory.wfFrom, Bool.and_eq_true, decide_eq_true_eq] at h ⊢
    exact ⟨⟨by omega, h.1.2⟩, h.2⟩

theorem Memory.read_write_same {m : Memory} {low : Nat} (a : Nat) (v : Byte) (h : Memory.wfFrom low m = true) :
    Memory.read (Memory.write m a v) a = v := by
  induction m generalizing low with
  | nil => by_cases hv : v = Memory.unlisted <;> simp [Memory.write, Memory.read, hv]
  | cons cell rest ih =>
    obtain ⟨k, w⟩ := cell
    have h' := h
    simp only [Memory.wfFrom, Bool.and_eq_true, decide_eq_true_eq] at h
    by_cases hlt : a < k
    · by_cases hv : v = Memory.unlisted
      · have hk : Memory.wfFrom k ((k, w) :: rest) = true := by
          simp [Memory.wfFrom, h.2, h.1.2]
        simpa [Memory.write, hlt, hv] using Memory.read_of_wfFrom_of_lt hk hlt
      · simp [Memory.write, hlt, hv, Memory.read]
    · by_cases heq : a = k
      · subst heq
        by_cases hv : v = Memory.unlisted
        · simpa [Memory.write, hv] using Memory.read_of_wfFrom_of_lt h.2 (Nat.lt_succ_self a)
        · simp [Memory.write, hv, Memory.read]
      · simpa [Memory.write, hlt, heq, Memory.read] using ih h.2

theorem Memory.read_write_other (m : Memory) {a c : Nat} (v : Byte) (hne : c ≠ a) :
    Memory.read (Memory.write m a v) c = Memory.read m c := by
  induction m with
  | nil => by_cases hv : v = Memory.unlisted <;> simp [Memory.write, Memory.read, hv, hne]
  | cons cell rest ih =>
    obtain ⟨k, w⟩ := cell
    by_cases hlt : a < k
    · by_cases hv : v = Memory.unlisted <;> simp [Memory.write, Memory.read, hlt, hv, hne]
    · by_cases heq : a = k
      · subst heq
        by_cases hv : v = Memory.unlisted <;> simp [Memory.write, Memory.read, hv, hne]
      · by_cases hc : c = k
        · simp [Memory.write, Memory.read, hlt, heq, hc]
        · simpa [Memory.write, Memory.read, hlt, heq, hc] using ih

theorem Memory.wfFrom_write {m : Memory} {low a : Nat} (v : Byte) (h : Memory.wfFrom low m = true) (ha : low ≤ a) :
    Memory.wfFrom low (Memory.write m a v) = true := by
  induction m generalizing low with
  | nil => by_cases hv : v = Memory.unlisted <;> simp [Memory.write, Memory.wfFrom, hv, ha]
  | cons cell rest ih =>
    obtain ⟨k, w⟩ := cell
    have h' := h
    simp only [Memory.wfFrom, Bool.and_eq_true, decide_eq_true_eq] at h
    by_cases hlt : a < k
    · by_cases hv : v = Memory.unlisted
      · simpa [Memory.write, hlt, hv] using h'
      · have : a + 1 ≤ k := hlt
        simp [Memory.write, hlt, hv, Memory.wfFrom, ha, this, h.1.2, h.2]
    · by_cases heq : a = k
      · subst heq
        by_cases hv : v = Memory.unlisted
        · simpa [Memory.write, hv] using Memory.wfFrom_mono h.2 (by omega)
        · simp [Memory.write, hv, Memory.wfFrom, h.1.1, h.2]
      · simp [Memory.write, hlt, heq, Memory.wfFrom, h.1.1, h.1.2, ih h.2 (by omega : k + 1 ≤ a)]

theorem Memory.all_lt_write {m : Memory} {size a : Nat} (v : Byte) (h : (m.all fun c => decide (c.1 < size)) = true)
    (ha : a < size) : ((Memory.write m a v).all fun c => decide (c.1 < size)) = true := by
  induction m with
  | nil => by_cases hv : v = Memory.unlisted <;> simp [Memory.write, hv, ha]
  | cons cell rest ih =>
    obtain ⟨k, w⟩ := cell
    have h' := h
    simp only [List.all_cons, Bool.and_eq_true] at h
    by_cases hlt : a < k
    · by_cases hv : v = Memory.unlisted
      · simpa [Memory.write, hlt, hv] using h'
      · simp only [Memory.write, hlt, hv, if_true, if_false, List.all_cons, Bool.and_eq_true]
        exact ⟨by simpa using ha, h.1, h.2⟩
    · by_cases heq : a = k
      · subst heq
        by_cases hv : v = Memory.unlisted
        · simpa [Memory.write, hv] using h.2
        · simp only [Memory.write, lt_irrefl, hv, if_true, if_false, List.all_cons, Bool.and_eq_true]
          exact ⟨by simpa using ha, h.2⟩
      · simp only [Memory.write, hlt, heq, if_false, List.all_cons, Bool.and_eq_true]
        exact ⟨h.1, ih h.2⟩

/-- A write keeps the canonical form. -/
theorem Memory.wf_write {size : Nat} {m : Memory} {a : Nat} (v : Byte) (h : Memory.wf size m = true) (ha : a < size) :
    Memory.wf size (Memory.write m a v) = true := by
  simp only [Memory.wf, Bool.and_eq_true] at h ⊢
  exact ⟨Memory.wfFrom_write v h.1 (Nat.zero_le a), Memory.all_lt_write v h.2 ha⟩

theorem Memory.wf_nil (size : Nat) : Memory.wf size [] = true := rfl

/-- A read after a write to the same index, in a canonical memory. -/
theorem Memory.read_write_same_of_wf {size : Nat} {m : Memory} (a : Nat) (v : Byte) (h : Memory.wf size m = true) :
    Memory.read (Memory.write m a v) a = v := by
  simp only [Memory.wf, Bool.and_eq_true] at h
  exact Memory.read_write_same a v h.1

/-- Two canonical memories that read the same everywhere are the same list. -/
theorem Memory.eq_of_read_eq {m m' : Memory} {low : Nat} (h : Memory.wfFrom low m = true)
    (h' : Memory.wfFrom low m' = true) (hr : ∀ a, Memory.read m a = Memory.read m' a) : m = m' := by
  induction m generalizing low m' with
  | nil =>
    cases m' with
    | nil => rfl
    | cons cell rest =>
      obtain ⟨k, v⟩ := cell
      simp only [Memory.wfFrom, Bool.and_eq_true, bne_iff_ne] at h'
      have := hr k
      simp only [Memory.read, if_true] at this
      exact absurd this.symm h'.1.2
  | cons cell rest ih =>
    obtain ⟨k, v⟩ := cell
    have w := h
    simp only [Memory.wfFrom, Bool.and_eq_true, bne_iff_ne, decide_eq_true_eq] at h
    have hk : Memory.read ((k, v) :: rest) k = v := by simp [Memory.read]
    cases m' with
    | nil =>
      rw [hr k] at hk
      exact absurd hk.symm h.1.2
    | cons cell' rest' =>
      obtain ⟨k', v'⟩ := cell'
      have w' := h'
      simp only [Memory.wfFrom, Bool.and_eq_true, bne_iff_ne, decide_eq_true_eq] at h'
      have hk' : Memory.read ((k', v') :: rest') k' = v' := by simp [Memory.read]
      have hc : ∀ {j : Nat} {w : Byte} {t : Memory}, Memory.wfFrom (j + 1) t = true → w ≠ Memory.unlisted →
          Memory.wfFrom j ((j, w) :: t) = true := by
        intro j w t ht hw
        simp [Memory.wfFrom, ht, hw]
      have hkk : k = k' := by
        rcases Nat.lt_trichotomy k k' with hlt | heq | hgt
        · rw [hr k, Memory.read_of_wfFrom_of_lt (hc h'.2 h'.1.2) hlt] at hk
          exact absurd hk.symm h.1.2
        · exact heq
        · rw [← hr k', Memory.read_of_wfFrom_of_lt (hc h.2 h.1.2) hgt] at hk'
          exact absurd hk'.symm h'.1.2
      subst hkk
      have hv : v = v' := by rw [← hk, hr k, hk']
      subst hv
      congr 1
      refine ih h.2 h'.2 fun a => ?_
      by_cases ha : a = k
      · subst ha
        rw [Memory.read_of_wfFrom_of_lt h.2 (Nat.lt_succ_self a), Memory.read_of_wfFrom_of_lt h'.2 (Nat.lt_succ_self a)]
      · have := hr a
        simpa [Memory.read, ha] using this

end Sys2Proof.Machine
end

