-- ==== Sys2Proof/Laws/State.lean ====
section
/-! SUPPORT. One lemma for each field and each update of the state and of the bus. -/

namespace Sys2Proof.Machine

@[simp] theorem State.withRegs_regs (s : State) (r : Regs) : (s.withRegs r).regs = r := rfl
@[simp] theorem State.withRegs_bus (s : State) (r : Regs) : (s.withRegs r).bus = s.bus := rfl
@[simp] theorem State.withRegs_pullZeroesSlot (s : State) (r : Regs) : (s.withRegs r).pullZeroesSlot = s.pullZeroesSlot := rfl
@[simp] theorem State.withRegs_irqLine (s : State) (r : Regs) : (s.withRegs r).irqLine = s.irqLine := rfl
@[simp] theorem State.withRegs_nmiPending (s : State) (r : Regs) : (s.withRegs r).nmiPending = s.nmiPending := rfl
@[simp] theorem State.withRegs_fault (s : State) (r : Regs) : (s.withRegs r).fault = s.fault := rfl
@[simp] theorem State.withRegs_diag (s : State) (r : Regs) : (s.withRegs r).diag = s.diag := rfl

@[simp] theorem State.withBus_regs (s : State) (b : Bus) : (s.withBus b).regs = s.regs := rfl
@[simp] theorem State.withBus_bus (s : State) (b : Bus) : (s.withBus b).bus = b := rfl
@[simp] theorem State.withBus_pullZeroesSlot (s : State) (b : Bus) : (s.withBus b).pullZeroesSlot = s.pullZeroesSlot := rfl
@[simp] theorem State.withBus_irqLine (s : State) (b : Bus) : (s.withBus b).irqLine = s.irqLine := rfl
@[simp] theorem State.withBus_nmiPending (s : State) (b : Bus) : (s.withBus b).nmiPending = s.nmiPending := rfl
@[simp] theorem State.withBus_fault (s : State) (b : Bus) : (s.withBus b).fault = s.fault := rfl
@[simp] theorem State.withBus_diag (s : State) (b : Bus) : (s.withBus b).diag = s.diag := rfl

@[simp] theorem State.withPc_regs (s : State) (w : Word) : (s.withPc w).regs = { s.regs with pc := w } := rfl
@[simp] theorem State.withPc_bus (s : State) (w : Word) : (s.withPc w).bus = s.bus := rfl
@[simp] theorem State.withPc_pullZeroesSlot (s : State) (w : Word) : (s.withPc w).pullZeroesSlot = s.pullZeroesSlot := rfl
@[simp] theorem State.withPc_irqLine (s : State) (w : Word) : (s.withPc w).irqLine = s.irqLine := rfl
@[simp] theorem State.withPc_nmiPending (s : State) (w : Word) : (s.withPc w).nmiPending = s.nmiPending := rfl
@[simp] theorem State.withPc_fault (s : State) (w : Word) : (s.withPc w).fault = s.fault := rfl
@[simp] theorem State.withPc_diag (s : State) (w : Word) : (s.withPc w).diag = s.diag := rfl

@[simp] theorem State.withSp_regs (s : State) (b : Byte) : (s.withSp b).regs = { s.regs with sp := b } := rfl
@[simp] theorem State.withSp_bus (s : State) (b : Byte) : (s.withSp b).bus = s.bus := rfl
@[simp] theorem State.withSp_pullZeroesSlot (s : State) (b : Byte) : (s.withSp b).pullZeroesSlot = s.pullZeroesSlot := rfl
@[simp] theorem State.withSp_irqLine (s : State) (b : Byte) : (s.withSp b).irqLine = s.irqLine := rfl
@[simp] theorem State.withSp_nmiPending (s : State) (b : Byte) : (s.withSp b).nmiPending = s.nmiPending := rfl
@[simp] theorem State.withSp_fault (s : State) (b : Byte) : (s.withSp b).fault = s.fault := rfl
@[simp] theorem State.withSp_diag (s : State) (b : Byte) : (s.withSp b).diag = s.diag := rfl

@[simp] theorem State.withFlags_regs (s : State) (p : Flags) : (s.withFlags p).regs = { s.regs with p := p } := rfl
@[simp] theorem State.withFlags_bus (s : State) (p : Flags) : (s.withFlags p).bus = s.bus := rfl
@[simp] theorem State.withFlags_pullZeroesSlot (s : State) (p : Flags) : (s.withFlags p).pullZeroesSlot = s.pullZeroesSlot := rfl
@[simp] theorem State.withFlags_irqLine (s : State) (p : Flags) : (s.withFlags p).irqLine = s.irqLine := rfl
@[simp] theorem State.withFlags_nmiPending (s : State) (p : Flags) : (s.withFlags p).nmiPending = s.nmiPending := rfl
@[simp] theorem State.withFlags_fault (s : State) (p : Flags) : (s.withFlags p).fault = s.fault := rfl
@[simp] theorem State.withFlags_diag (s : State) (p : Flags) : (s.withFlags p).diag = s.diag := rfl

@[simp] theorem State.withFault_regs (s : State) (f : Option FaultRecord) : (s.withFault f).regs = s.regs := rfl
@[simp] theorem State.withFault_bus (s : State) (f : Option FaultRecord) : (s.withFault f).bus = s.bus := rfl
@[simp] theorem State.withFault_pullZeroesSlot (s : State) (f : Option FaultRecord) : (s.withFault f).pullZeroesSlot = s.pullZeroesSlot := rfl
@[simp] theorem State.withFault_irqLine (s : State) (f : Option FaultRecord) : (s.withFault f).irqLine = s.irqLine := rfl
@[simp] theorem State.withFault_nmiPending (s : State) (f : Option FaultRecord) : (s.withFault f).nmiPending = s.nmiPending := rfl
@[simp] theorem State.withFault_fault (s : State) (f : Option FaultRecord) : (s.withFault f).fault = f := rfl
@[simp] theorem State.withFault_diag (s : State) (f : Option FaultRecord) : (s.withFault f).diag = s.diag := rfl

@[simp] theorem State.withDiag_regs (s : State) (d : Option Diagnostics) : (s.withDiag d).regs = s.regs := rfl
@[simp] theorem State.withDiag_bus (s : State) (d : Option Diagnostics) : (s.withDiag d).bus = s.bus := rfl
@[simp] theorem State.withDiag_pullZeroesSlot (s : State) (d : Option Diagnostics) : (s.withDiag d).pullZeroesSlot = s.pullZeroesSlot := rfl
@[simp] theorem State.withDiag_irqLine (s : State) (d : Option Diagnostics) : (s.withDiag d).irqLine = s.irqLine := rfl
@[simp] theorem State.withDiag_nmiPending (s : State) (d : Option Diagnostics) : (s.withDiag d).nmiPending = s.nmiPending := rfl
@[simp] theorem State.withDiag_fault (s : State) (d : Option Diagnostics) : (s.withDiag d).fault = s.fault := rfl
@[simp] theorem State.withDiag_diag (s : State) (d : Option Diagnostics) : (s.withDiag d).diag = d := rfl

@[simp] theorem State.withNmi_regs (s : State) (b : Bool) : (s.withNmi b).regs = s.regs := rfl
@[simp] theorem State.withNmi_bus (s : State) (b : Bool) : (s.withNmi b).bus = s.bus := rfl
@[simp] theorem State.withNmi_pullZeroesSlot (s : State) (b : Bool) : (s.withNmi b).pullZeroesSlot = s.pullZeroesSlot := rfl
@[simp] theorem State.withNmi_irqLine (s : State) (b : Bool) : (s.withNmi b).irqLine = s.irqLine := rfl
@[simp] theorem State.withNmi_nmiPending (s : State) (b : Bool) : (s.withNmi b).nmiPending = b := rfl
@[simp] theorem State.withNmi_fault (s : State) (b : Bool) : (s.withNmi b).fault = s.fault := rfl
@[simp] theorem State.withNmi_diag (s : State) (b : Bool) : (s.withNmi b).diag = s.diag := rfl

@[simp] theorem State.withIrq_regs (s : State) (b : Bool) : (s.withIrq b).regs = s.regs := rfl
@[simp] theorem State.withIrq_bus (s : State) (b : Bool) : (s.withIrq b).bus = s.bus := rfl
@[simp] theorem State.withIrq_pullZeroesSlot (s : State) (b : Bool) : (s.withIrq b).pullZeroesSlot = s.pullZeroesSlot := rfl
@[simp] theorem State.withIrq_irqLine (s : State) (b : Bool) : (s.withIrq b).irqLine = b := rfl
@[simp] theorem State.withIrq_nmiPending (s : State) (b : Bool) : (s.withIrq b).nmiPending = s.nmiPending := rfl
@[simp] theorem State.withIrq_fault (s : State) (b : Bool) : (s.withIrq b).fault = s.fault := rfl
@[simp] theorem State.withIrq_diag (s : State) (b : Bool) : (s.withIrq b).diag = s.diag := rfl

@[simp] theorem State.advance_regs (s : State) (n : Nat) : (s.advance n).regs = { s.regs with pc := s.regs.pc + BitVec.ofNat 16 n } := rfl
@[simp] theorem State.advance_bus (s : State) (n : Nat) : (s.advance n).bus = s.bus := rfl
@[simp] theorem State.advance_pullZeroesSlot (s : State) (n : Nat) : (s.advance n).pullZeroesSlot = s.pullZeroesSlot := rfl
@[simp] theorem State.advance_irqLine (s : State) (n : Nat) : (s.advance n).irqLine = s.irqLine := rfl
@[simp] theorem State.advance_nmiPending (s : State) (n : Nat) : (s.advance n).nmiPending = s.nmiPending := rfl
@[simp] theorem State.advance_fault (s : State) (n : Nat) : (s.advance n).fault = s.fault := rfl
@[simp] theorem State.advance_diag (s : State) (n : Nat) : (s.advance n).diag = s.diag := rfl

@[simp] theorem Bus.withRam_ram (b : Bus) (m : Memory) : (b.withRam m).ram = m := rfl
@[simp] theorem Bus.withRam_prg (b : Bus) (m : Memory) : (b.withRam m).prg = b.prg := rfl
@[simp] theorem Bus.withRam_mapper (b : Bus) (m : Memory) : (b.withRam m).mapper = b.mapper := rfl
@[simp] theorem Bus.withRam_calls (b : Bus) (m : Memory) : (b.withRam m).calls = b.calls := rfl
@[simp] theorem Bus.withRam_draws (b : Bus) (m : Memory) : (b.withRam m).draws = b.draws := rfl

@[simp] theorem Bus.withPrg_ram (b : Bus) (m : Memory) : (b.withPrg m).ram = b.ram := rfl
@[simp] theorem Bus.withPrg_prg (b : Bus) (m : Memory) : (b.withPrg m).prg = m := rfl
@[simp] theorem Bus.withPrg_mapper (b : Bus) (m : Memory) : (b.withPrg m).mapper = b.mapper := rfl
@[simp] theorem Bus.withPrg_calls (b : Bus) (m : Memory) : (b.withPrg m).calls = b.calls := rfl
@[simp] theorem Bus.withPrg_draws (b : Bus) (m : Memory) : (b.withPrg m).draws = b.draws := rfl

@[simp] theorem Bus.draw_ram (b : Bus) : (b.draw).ram = b.ram := rfl
@[simp] theorem Bus.draw_prg (b : Bus) : (b.draw).prg = b.prg := rfl
@[simp] theorem Bus.draw_mapper (b : Bus) : (b.draw).mapper = b.mapper := rfl
@[simp] theorem Bus.draw_calls (b : Bus) : (b.draw).calls = b.calls := rfl
@[simp] theorem Bus.draw_draws (b : Bus) : (b.draw).draws = b.draws + 1 := rfl

@[simp] theorem Bus.log_ram (b : Bus) (c : CollaboratorCall) : (b.log c).ram = b.ram := rfl
@[simp] theorem Bus.log_prg (b : Bus) (c : CollaboratorCall) : (b.log c).prg = b.prg := rfl
@[simp] theorem Bus.log_mapper (b : Bus) (c : CollaboratorCall) : (b.log c).mapper = b.mapper := rfl
@[simp] theorem Bus.log_calls (b : Bus) (c : CollaboratorCall) : (b.log c).calls = c :: b.calls := rfl
@[simp] theorem Bus.log_draws (b : Bus) (c : CollaboratorCall) : (b.log c).draws = b.draws := rfl

@[simp] theorem Res.bind_ok {α β : Type} (v : α) (s : State) (f : α → State → Res β) :
    (Res.ok v s).bind f = f v s := rfl

@[simp] theorem Res.bind_fault {α β : Type} (e : Raised) (s : State) (f : α → State → Res β) :
    (Res.fault e s).bind f = .fault e s := rfl

@[simp] theorem complete_ok (op : Byte) (s t : State) : complete op s (.ok () t) = .next t := rfl

@[simp] theorem complete_fault (op : Byte) (s t : State) (e : Raised) :
    complete op s (.fault e t) = endWithFault s (some op) e t := rfl

end Sys2Proof.Machine
end

