-- ==== Sys2Proof/Laws/Bus.lean ====
section
/-! SUPPORT. What one bus access can do, and `Within`: all that an operation inside a step can do outside the registers. -/

namespace Sys2Proof.Machine

/-! ### The bus decode -/

theorem decodeAddress_workRam {a : Word} (h : a.toNat < 0x2000) :
    decodeAddress a = .workRam (BitVec.ofNat 11 (a.toNat % 0x0800)) := by
  simp [decodeAddress, h]

theorem decodeAddress_unmapped {a : Word} (h1 : 0x4018 ≤ a.toNat) (h2 : a.toNat < 0x8000) :
    decodeAddress a = .unmapped := by
  have e1 : ¬ a.toNat < 0x2000 := by omega
  have e2 : ¬ a.toNat < 0x4000 := by omega
  have e3 : ¬ a.toNat < 0x4018 := by omega
  simp [decodeAddress, e1, e2, e3, h2]

theorem decodeAddress_cartridge {a : Word} (h : 0x8000 ≤ a.toNat) : decodeAddress a = .cartridge a := by
  have e1 : ¬ a.toNat < 0x2000 := by omega
  have e2 : ¬ a.toNat < 0x4000 := by omega
  have e3 : ¬ a.toNat < 0x4018 := by omega
  have e4 : ¬ a.toNat < 0x8000 := by omega
  simp [decodeAddress, e1, e2, e3, e4]

/-- Only an address of the unmapped range decodes to no target. -/
theorem decodeAddress_eq_unmapped {a : Word} (h : decodeAddress a = .unmapped) :
    0x4018 ≤ a.toNat ∧ a.toNat < 0x8000 := by
  unfold decodeAddress at h
  split at h
  · cases h
  · split at h
    · cases h
    · split at h
      · cases h
      · split at h
        · omega
        · cases h

/-- Only a cartridge address decodes to the cartridge, unchanged. -/
theorem decodeAddress_eq_cartridge {a c : Word} (h : decodeAddress a = .cartridge c) : 0x8000 ≤ a.toNat ∧ c = a := by
  unfold decodeAddress at h
  split at h
  · cases h
  · split at h
    · cases h
    · split at h
      · cases h
      · split at h
        · cases h
        · cases h
          exact ⟨by omega, rfl⟩

/-- A stack address is a work RAM cell of the stack page (R69). -/
theorem decodeAddress_stack (sp : Byte) :
    decodeAddress (stackAddress sp) = .workRam (BitVec.ofNat 11 (0x0100 + sp.toNat)) := by
  have hsp := sp.isLt
  have h : (stackAddress sp).toNat = 0x0100 + sp.toNat := by
    simp only [stackAddress, BitVec.toNat_add, BitVec.toNat_ofNat, BitVec.toNat_setWidth]
    omega
  rw [decodeAddress_workRam (by omega), h]
  congr 2
  omega

/-- A zero-page address is a work RAM cell of the zero page (R54). -/
theorem decodeAddress_zeroPage (b : Byte) : decodeAddress (joinBytes 0x00#8 b) = .workRam (BitVec.ofNat 11 b.toNat) := by
  have hb := b.isLt
  have h : (joinBytes 0x00#8 b).toNat = b.toNat := by
    rw [toNat_joinBytes]
    simp
  rw [decodeAddress_workRam (by omega), h]
  congr 2
  omega

theorem ramIndex_lt (i : BitVec 11) : i.toNat < Memory.ramSize := i.isLt

/-! ### What an operation can do outside the registers -/

/-- Everything an operation inside a step can do outside the registers: write work RAM in canonical form, call
collaborators, and take free values. -/
structure Within (s t : State) : Prop where
  prg : t.bus.prg = s.bus.prg
  mapper : t.bus.mapper = s.bus.mapper
  pullZeroesSlot : t.pullZeroesSlot = s.pullZeroesSlot
  irqLine : t.irqLine = s.irqLine
  nmiPending : t.nmiPending = s.nmiPending
  fault : t.fault = s.fault
  diag : t.diag = s.diag
  draws : s.bus.draws ≤ t.bus.draws
  calls : s.bus.calls <:+ t.bus.calls
  ram : Memory.wf Memory.ramSize s.bus.ram = true → Memory.wf Memory.ramSize t.bus.ram = true

theorem Within.refl (s : State) : Within s s :=
  ⟨rfl, rfl, rfl, rfl, rfl, rfl, rfl, Nat.le_refl _, List.suffix_refl _, id⟩

theorem Within.trans {s t u : State} (h : Within s t) (k : Within t u) : Within s u :=
  ⟨k.prg.trans h.prg, k.mapper.trans h.mapper, k.pullZeroesSlot.trans h.pullZeroesSlot, k.irqLine.trans h.irqLine,
    k.nmiPending.trans h.nmiPending, k.fault.trans h.fault, k.diag.trans h.diag, Nat.le_trans h.draws k.draws,
    h.calls.trans k.calls, fun w => k.ram (h.ram w)⟩

/-- A change of registers only. -/
theorem Within.regs (s : State) (r : Regs) : Within s (s.withRegs r) :=
  ⟨rfl, rfl, rfl, rfl, rfl, rfl, rfl, Nat.le_refl _, List.suffix_refl _, id⟩

/-- A state that agrees with `t` outside the registers is as much within `s` as `t` is. -/
theorem Within.withRegs {s t : State} (h : Within s t) (r : Regs) : Within s (t.withRegs r) := h.trans (.regs t r)

theorem Within.wf {s t : State} (h : Within s t) (w : s.wf = true) : t.wf = true := by
  simp only [State.wf, Bus.wf, Bool.and_eq_true] at w ⊢
  exact ⟨h.ram w.1, by rw [h.prg]; exact w.2⟩

/-- The state of a result, whether it is a value or a fault. -/
def Res.state {α : Type} : Res α → State
  | .ok _ t => t
  | .fault _ t => t

@[simp] theorem Res.state_ok {α : Type} (v : α) (t : State) : (Res.ok v t).state = t := rfl
@[simp] theorem Res.state_fault {α : Type} (e : Raised) (t : State) : (Res.fault e t : Res α).state = t := rfl

/-- Both steps of a sequence stay within. -/
theorem Within.bind {α β : Type} {s : State} {r : Res α} {f : α → State → Res β} (h : Within s r.state)
    (k : ∀ v t, r = .ok v t → Within t (f v t).state) : Within s (r.bind f).state := by
  cases r with
  | ok v t => exact h.trans (k v t rfl)
  | fault e t => exact h

theorem Within.draw (s : State) : Within s (s.withBus s.bus.draw) :=
  ⟨rfl, rfl, rfl, rfl, rfl, rfl, rfl, Nat.le_succ _, List.suffix_refl _, id⟩

theorem Within.log (s : State) (c : CollaboratorCall) : Within s (s.withBus (s.bus.log c)) :=
  ⟨rfl, rfl, rfl, rfl, rfl, rfl, rfl, Nat.le_refl _, List.suffix_cons _ _, id⟩

theorem Within.drawLog (s : State) (c : CollaboratorCall) : Within s (s.withBus (s.bus.draw.log c)) :=
  ⟨rfl, rfl, rfl, rfl, rfl, rfl, rfl, Nat.le_succ _, List.suffix_cons _ _, id⟩

theorem readByte_within (k : AccessKind) (a : Word) (s : State) : Within s (readByte k a s).state := by
  unfold readByte
  split
  · exact .refl s
  · exact .drawLog s _
  · exact .drawLog s _
  · exact .refl s
  · unfold mapperRead
    split
    · exact .refl s
    · split
      · exact .drawLog s _
      · exact .draw s

theorem writeByte_within (a : Word) (v : Byte) (s : State) : Within s (writeByte a v s).state := by
  unfold writeByte
  split
  · rename_i i _
    exact ⟨rfl, rfl, rfl, rfl, rfl, rfl, rfl, Nat.le_refl _, List.suffix_refl _,
      fun w => Memory.wf_write v w (ramIndex_lt i)⟩
  · exact .log s _
  · exact .log s _
  · exact .refl s
  · unfold mapperWrite
    split
    · exact .refl s
    · split
      · exact .drawLog s _
      · exact .draw s

/-- A read changes no register and no byte of work RAM, whether it answers or faults. -/
theorem readByte_keeps (k : AccessKind) (a : Word) (s : State) :
    (readByte k a s).state.regs = s.regs ∧ (readByte k a s).state.bus.ram = s.bus.ram := by
  unfold readByte
  split <;> try exact ⟨rfl, rfl⟩
  unfold mapperRead
  split
  · exact ⟨rfl, rfl⟩
  · split <;> exact ⟨rfl, rfl⟩

/-- A write changes no register, whether it is done or faults. -/
theorem writeByte_keeps_regs (a : Word) (v : Byte) (s : State) : (writeByte a v s).state.regs = s.regs := by
  unfold writeByte
  split <;> try rfl
  unfold mapperWrite
  split
  · rfl
  · split <;> rfl

/-- A read of an address where a byte is stored answers that byte and changes nothing. -/
theorem readByte_of_peek {a : Word} {s : State} {v : Byte} (k : AccessKind) (h : s.peek a = some v) :
    readByte k a s = .ok v s := by
  unfold State.peek at h
  unfold readByte
  split at h <;> rename_i heq <;> rw [heq] <;> simp_all [mapperRead]
  split at h <;> simp_all

/-- All that a faulting read can be: of the unmapped range, or of another mapper that fails. -/
theorem readByte_fault {k : AccessKind} {a : Word} {s t : State} {e : Raised} (h : readByte k a s = .fault e t) :
    e.access = k ∧ e.address = a ∧
    ((0x4018 ≤ a.toNat ∧ a.toNat < 0x8000 ∧ e.kind = .unmappedAddress ∧ e.detail = none ∧ t = s) ∨
     (0x8000 ≤ a.toNat ∧ s.bus.mapper = .other ∧ e.kind = .mapperFault ∧ (∃ d, e.detail = some d) ∧
      t = s.withBus s.bus.draw)) := by
  unfold readByte at h
  split at h <;> rename_i ha
  · cases h
  · cases h
  · cases h
  · obtain ⟨h1, h2⟩ := decodeAddress_eq_unmapped ha
    cases h
    exact ⟨rfl, rfl, .inl ⟨h1, h2, rfl, rfl, rfl⟩⟩
  · obtain ⟨h1, rfl⟩ := decodeAddress_eq_cartridge ha
    unfold mapperRead at h
    split at h <;> rename_i hm
    · cases h
    · split at h
      · cases h
      · cases h
        exact ⟨rfl, rfl, .inr ⟨h1, hm, rfl, ⟨_, rfl⟩, rfl⟩⟩

/-- A cartridge read with another mapper takes one draw: it answers the mapper's byte and is delivered, or raises
MapperFault. -/
theorem readByte_other (k : AccessKind) {a : Word} {s : State} (h : 0x8000 ≤ a.toNat) (hm : s.bus.mapper = .other) :
    readByte k a s =
      match Config.otherMapperRead s.bus.draws a with
      | .ok v => .ok v (s.withBus (s.bus.draw.log (.mapperRead a v)))
      | .error d => .fault ⟨.mapperFault, k, a, some d⟩ (s.withBus s.bus.draw) := by
  cases hd : Config.otherMapperRead s.bus.draws a <;> simp only [readByte, decodeAddress_cartridge h, mapperRead, hm, hd]

end Sys2Proof.Machine
end

