-- ==== Sys2Proof/Laws/Stack.lean ====
section
/-! SUPPORT. The stack unit in closed form: it never faults, and touches one byte of the stack page at a time (R69 to R74).
-/

namespace Sys2Proof.Machine

/-- The work RAM index of the stack byte that `sp` names. -/
def stackIndex (sp : Byte) : Nat := 0x0100 + sp.toNat

theorem stackIndex_ofNat (sp : Byte) : (BitVec.ofNat 11 (0x0100 + sp.toNat)).toNat = stackIndex sp := by
  have := sp.isLt
  simp only [BitVec.toNat_ofNat, stackIndex]
  omega

theorem stackIndex_lt (sp : Byte) : stackIndex sp < Memory.ramSize := by
  have := sp.isLt
  simp only [stackIndex, Memory.ramSize]
  omega

theorem stackIndex_inj {p q : Byte} (h : stackIndex p = stackIndex q) : p = q :=
  BitVec.eq_of_toNat_eq (by simp only [stackIndex] at h; omega)

/-- The state with a byte at the stack position `sp`. -/
def State.putStack (s : State) (sp v : Byte) : State :=
  s.withBus (s.bus.withRam (Memory.write s.bus.ram (stackIndex sp) v))

@[simp] theorem State.putStack_regs (s : State) (sp v : Byte) : (s.putStack sp v).regs = s.regs := rfl
@[simp] theorem State.putStack_ram (s : State) (sp v : Byte) :
    (s.putStack sp v).bus.ram = Memory.write s.bus.ram (stackIndex sp) v := rfl
@[simp] theorem State.putStack_pullZeroesSlot (s : State) (sp v : Byte) :
    (s.putStack sp v).pullZeroesSlot = s.pullZeroesSlot := rfl

theorem readByte_stack (k : AccessKind) (sp : Byte) (s : State) :
    readByte k (stackAddress sp) s = .ok (Memory.read s.bus.ram (stackIndex sp)) s := by
  simp only [readByte, decodeAddress_stack, stackIndex_ofNat]

theorem writeByte_stack (sp v : Byte) (s : State) :
    writeByte (stackAddress sp) v s = .ok () (s.putStack sp v) := by
  simp only [writeByte, decodeAddress_stack, stackIndex_ofNat, State.putStack]

/-- All that `push8` does (R70). -/
theorem push8_eq (b : Byte) (s : State) :
    push8 b s = .ok () ((s.putStack s.regs.sp b).withSp (s.regs.sp - 1#8)) := by
  simp [push8, writeByte_stack]

/-- All that `push16` does (R71). -/
theorem push16_eq (w : Word) (s : State) :
    push16 w s = .ok () (((s.putStack s.regs.sp (highByte w)).putStack (s.regs.sp - 1#8) (lowByte w)).withSp
      (s.regs.sp - 2#8)) := by
  have h : s.regs.sp - 1#8 - 1#8 = s.regs.sp - 2#8 := by bv_omega
  simp [push16, push8_eq, State.putStack, State.withSp, State.withBus, h]

/-- The state after `pull8`: SP moved up, and the vacated byte zeroed if the parameter says so (R72). -/
def pulled (s : State) : State :=
  let s1 := s.withSp (s.regs.sp + 1#8)
  if s.pullZeroesSlot then s1.putStack (s.regs.sp + 1#8) 0x00#8 else s1

/-- All that `pull8` does (R72). -/
theorem pull8_eq (s : State) :
    pull8 s = .ok (Memory.read s.bus.ram (stackIndex (s.regs.sp + 1#8))) (pulled s) := by
  cases h : s.pullZeroesSlot <;> simp [pull8, readByte_stack, writeByte_stack, pulled, h]

@[simp] theorem pulled_sp (s : State) : (pulled s).regs.sp = s.regs.sp + 1#8 := by
  cases h : s.pullZeroesSlot <;> simp [pulled, h]

/-- `pull8` changes no register but SP. -/
theorem pulled_regs (s : State) : (pulled s).regs = { s.regs with sp := s.regs.sp + 1#8 } := by
  cases h : s.pullZeroesSlot <;> simp [pulled, h]

@[simp] theorem pulled_pullZeroesSlot (s : State) : (pulled s).pullZeroesSlot = s.pullZeroesSlot := by
  cases h : s.pullZeroesSlot <;> simp [pulled, h]

/-- `pull8` changes no byte but the vacated one. -/
theorem pulled_ram_other (s : State) {k : Nat} (hk : k ≠ stackIndex (s.regs.sp + 1#8)) :
    Memory.read (pulled s).bus.ram k = Memory.read s.bus.ram k := by
  cases h : s.pullZeroesSlot
  · simp [pulled, h]
  · simp [pulled, h, Memory.read_write_other _ _ hk]

theorem stackIndex_succ_ne (p : Byte) : stackIndex (p + 1#8) ≠ stackIndex p := fun h => by
  have := stackIndex_inj h
  bv_omega

/-- All that `pull16` does (R73). -/
theorem pull16_eq (s : State) :
    pull16 s = .ok
      (joinBytes (Memory.read s.bus.ram (stackIndex (s.regs.sp + 1#8 + 1#8)))
        (Memory.read s.bus.ram (stackIndex (s.regs.sp + 1#8)))) (pulled (pulled s)) := by
  simp [pull16, pull8_eq, pulled_ram_other s (stackIndex_succ_ne (s.regs.sp + 1#8))]

theorem putStack_within (s : State) (sp v : Byte) : Within s (s.putStack sp v) :=
  ⟨rfl, rfl, rfl, rfl, rfl, rfl, rfl, Nat.le_refl _, List.suffix_refl _,
    fun w => Memory.wf_write v w (stackIndex_lt sp)⟩

theorem pulled_within (s : State) : Within s (pulled s) := by
  unfold pulled
  split
  · exact (Within.regs s _).trans (putStack_within _ _ _)
  · exact Within.regs s _

theorem push8_within (b : Byte) (s : State) : Within s (push8 b s).state := by
  rw [push8_eq]
  exact (putStack_within s _ b).withRegs _

theorem push16_within (w : Word) (s : State) : Within s (push16 w s).state := by
  rw [push16_eq]
  exact ((putStack_within s _ _).trans (putStack_within _ _ _)).withRegs _

theorem pull8_within (s : State) : Within s (pull8 s).state := by
  rw [pull8_eq]
  exact pulled_within s

theorem pull16_within (s : State) : Within s (pull16 s).state := by
  rw [pull16_eq]
  exact (pulled_within s).trans (pulled_within _)

theorem readVector_within (v : Word) (s : State) : Within s (readVector v s).state :=
  (readByte_within _ _ s).bind fun _ t _ => (readByte_within _ _ t).bind fun _ u _ => .refl u

theorem takeInterrupt_within (v ret : Word) (b : Byte) (s : State) : Within s (takeInterrupt v ret b s).state :=
  (push16_within ret s).bind fun _ t _ => (push8_within b t).bind fun _ u _ =>
    ((Within.regs u _).trans (readVector_within v _)).bind fun _ x _ => .regs x _

theorem returnFromInterrupt_within (s : State) : Within s (returnFromInterrupt s).state :=
  (pull8_within s).bind fun _ t _ => ((Within.regs t _).trans (pull16_within _)).bind fun _ u _ => .regs u _

end Sys2Proof.Machine
end

