-- ==== Sys2Proof/Laws/Exec.lean ====
section
/-! SUPPORT. Every meaning as one operation over the class of its instruction (`exec_eq`), and all that a meaning can do
outside the registers. -/

namespace Sys2Proof.Machine

/-- The register effect of each instruction that loads an operand. -/
def readEffect : ReadOp → Byte → Regs → Regs
  | .lda => loadA
  | .ldx => loadX
  | .ldy => loadY
  | .adc => addToA
  | .sbc => subtractFromA
  | .and => andIntoA
  | .ora => orIntoA
  | .eor => xorIntoA
  | .bit => testBits
  | .cmp => compareA
  | .cpx => compareX
  | .cpy => compareY

/-- The register each store writes. -/
def writeValue : WriteOp → Regs → Byte
  | .sta => Regs.a
  | .stx => Regs.x
  | .sty => Regs.y

/-- The operation of each read-modify-write instruction. -/
def modifyEffect : ModifyOp → Byte → Flags → Byte × Flags
  | .asl => shiftLeft
  | .lsr => shiftRight
  | .rol => rotateLeft
  | .ror => rotateRight
  | .inc => increment
  | .dec => decrement

/-- The condition of each branch. -/
def branchCondition : BranchOp → Flags → Bool
  | .bcc => fun p => !p.c
  | .bcs => fun p => p.c
  | .beq => fun p => p.z
  | .bmi => fun p => p.n
  | .bne => fun p => !p.z
  | .bpl => fun p => !p.n
  | .bvc => fun p => !p.v
  | .bvs => fun p => p.v

/-- The register effect of the Implied instructions that use neither the stack nor a vector; none for the others. -/
def registerEffect : ImpliedOp → Option (Regs → Regs)
  | .tax => some fun r => { r with x := r.a, p := r.p.setNZ r.a }
  | .tay => some fun r => { r with y := r.a, p := r.p.setNZ r.a }
  | .txa => some fun r => { r with a := r.x, p := r.p.setNZ r.x }
  | .tya => some fun r => { r with a := r.y, p := r.p.setNZ r.y }
  | .tsx => some fun r => { r with x := r.sp, p := r.p.setNZ r.sp }
  | .txs => some fun r => { r with sp := r.x }
  | .inx => some fun r => { r with x := r.x + 1#8, p := r.p.setNZ (r.x + 1#8) }
  | .iny => some fun r => { r with y := r.y + 1#8, p := r.p.setNZ (r.y + 1#8) }
  | .dex => some fun r => { r with x := r.x - 1#8, p := r.p.setNZ (r.x - 1#8) }
  | .dey => some fun r => { r with y := r.y - 1#8, p := r.p.setNZ (r.y - 1#8) }
  | .clc => some fun r => { r with p := { r.p with c := false } }
  | .cld => some fun r => { r with p := { r.p with d := false } }
  | .cli => some fun r => { r with p := { r.p with i := false } }
  | .clv => some fun r => { r with p := { r.p with v := false } }
  | .sec => some fun r => { r with p := { r.p with c := true } }
  | .sed => some fun r => { r with p := { r.p with d := true } }
  | .sei => some fun r => { r with p := { r.p with i := true } }
  | .nop => some fun r => r
  | .pha | .php | .pla | .plp | .rts | .rti | .brk => none

/-- What an Implied instruction does after PC has passed its opcode. -/
def runImplied (op : ImpliedOp) (s : State) : Res Unit :=
  match op with
  | .pha => push8 s.regs.a s
  | .php => push8 s.regs.p.serialize s
  | .pla => (pull8 s).bind fun v s1 => .ok () (s1.withRegs (loadA v s1.regs))
  | .plp => (pull8 s).bind fun b s1 => .ok () (s1.withFlags (Flags.deserialize b))
  | .rts => (pull16 s).bind fun w s1 => .ok () (s1.withPc (w + 1#16))
  | .rti => returnFromInterrupt s
  | .brk =>
    let s1 := s.withFlags { s.regs.p with b := true }
    takeInterrupt irqVector (s1.regs.pc + 1#16) s1.regs.p.serialize s1
  | op =>
    match registerEffect op with
    | some f => .ok () (s.withRegs (f s.regs))
    | none => .ok () s

/-- What a read-modify-write instruction does after PC has passed its bytes. -/
def runModify (f : Byte → Flags → Byte × Flags) (tgt : ModifyArg) (s : State) : Res Unit :=
  match tgt with
  | .acc => .ok () (s.withRegs { s.regs with a := (f s.regs.a s.regs.p).1, p := (f s.regs.a s.regs.p).2 })
  | .mem m =>
    (effectiveAddress m s).bind fun ea s1 =>
      (readByte .read ea s1).bind fun v s2 =>
        (writeByte ea (f v s2.regs.p).1 s2).bind fun _ s3 => .ok () (s3.withFlags (f v s2.regs.p).2)

/-- What an instruction does after PC has passed its bytes, by its form. -/
def runForm (f : Form) (s : State) : Res Unit :=
  match f with
  | .read op src => (loadRead src s).bind fun v s1 => .ok () (s1.withRegs (readEffect op v s1.regs))
  | .write op dst => (effectiveAddress dst s).bind fun ea s1 => writeByte ea (writeValue op s1.regs) s1
  | .modify op tgt => runModify (modifyEffect op) tgt s
  | .branch op d => .ok () (if branchCondition op s.regs.p then s.withPc (branchTarget d s) else s)
  | .jump t => (jumpTarget t s).bind fun ea s1 => .ok () (s1.withPc ea)
  | .call w => (push16 (s.regs.pc - 1#16) s).bind fun _ s1 => .ok () (s1.withPc w)
  | .implied op => runImplied op s

/-- Every meaning is its form, run with PC past the instruction's bytes, and completed with the instruction's opcode. -/
theorem exec_eq (i : Instr) (s : State) :
    exec i s = complete i.opcode s (runForm i.form (s.advance i.length)) := by
  cases i <;> rfl

theorem readZeroPageWord_within (p : Byte) (s : State) : Within s (readZeroPageWord p s).state :=
  (readByte_within _ _ s).bind fun _ t _ => (readByte_within _ _ t).bind fun _ u _ => .refl u

theorem effectiveAddress_within (m : MemArg) (s : State) : Within s (effectiveAddress m s).state := by
  cases m with
  | indX b => exact readZeroPageWord_within _ s
  | indY b => exact (readZeroPageWord_within _ s).bind fun _ t _ => .refl t
  | _ => exact .refl s

theorem jumpTarget_within (t : JumpArg) (s : State) : Within s (jumpTarget t s).state := by
  cases t with
  | abs w => exact .refl s
  | ind p => exact (readByte_within _ _ s).bind fun _ t _ => (readByte_within _ _ t).bind fun _ u _ => .refl u

theorem loadRead_within (src : ReadArg) (s : State) : Within s (loadRead src s).state := by
  cases src with
  | imm v => exact .refl s
  | mem m => exact (effectiveAddress_within m s).bind fun _ t _ => readByte_within _ _ t

theorem runModify_within (f : Byte → Flags → Byte × Flags) (tgt : ModifyArg) (s : State) :
    Within s (runModify f tgt s).state := by
  cases tgt with
  | acc => exact .regs s _
  | mem m =>
    exact (effectiveAddress_within m s).bind fun _ t _ => (readByte_within _ _ t).bind fun _ u _ =>
      (writeByte_within _ _ u).bind fun _ x _ => .regs x _

theorem runImplied_within (op : ImpliedOp) (s : State) : Within s (runImplied op s).state := by
  cases op with
  | pha => exact push8_within _ s
  | php => exact push8_within _ s
  | pla => exact (pull8_within s).bind fun _ t _ => .regs t _
  | plp => exact (pull8_within s).bind fun _ t _ => .regs t _
  | rts => exact (pull16_within s).bind fun _ t _ => .regs t _
  | rti => exact returnFromInterrupt_within s
  | brk => exact (Within.regs s _).trans (takeInterrupt_within _ _ _ _)
  | _ => exact .regs s _

theorem runForm_within (f : Form) (s : State) : Within s (runForm f s).state := by
  cases f with
  | read op src => exact (loadRead_within src s).bind fun _ t _ => .regs t _
  | write op dst => exact (effectiveAddress_within dst s).bind fun _ t _ => writeByte_within _ _ t
  | modify op tgt => exact runModify_within _ tgt s
  | branch op d => simp only [runForm, Res.state_ok]; split <;> exact .regs s _
  | jump t => exact (jumpTarget_within t s).bind fun _ t _ => .regs t _
  | call w => exact (push16_within _ s).bind fun _ t _ => .regs t _
  | implied op => exact runImplied_within op s

/-- All that an instruction can answer: a next state within the start, or a fault raised within it. -/
theorem exec_cases (i : Instr) (s : State) :
    (∃ t, exec i s = .next t ∧ runForm i.form (s.advance i.length) = .ok () t ∧ Within s t) ∨
    (∃ e t, exec i s = endWithFault s (some i.opcode) e t ∧
      runForm i.form (s.advance i.length) = .fault e t ∧ Within s t) := by
  have h : Within s (runForm i.form (s.advance i.length)).state :=
    (Within.regs s _).trans (runForm_within i.form (s.advance i.length))
  rw [exec_eq]
  cases hr : runForm i.form (s.advance i.length) with
  | ok v t => rw [hr] at h; exact .inl ⟨t, rfl, rfl, h⟩
  | fault e t => rw [hr] at h; exact .inr ⟨e, t, rfl, rfl, h⟩

/-- An instruction that answers a next state stays within its start. -/
theorem exec_next_within {i : Instr} {s t : State} (h : exec i s = .next t) : Within s t := by
  obtain ⟨u, hu, _, hw⟩ | ⟨e, u, hu, _, _⟩ := exec_cases i s
  · rw [hu] at h; cases h; exact hw
  · rw [hu] at h; cases h

end Sys2Proof.Machine
end

