-- ==== Sys2Proof/Laws/Step.lean ====
section
/-! SUPPORT. All that a step can be: a repeated fault, an interrupt entry, or an instruction with its fetches;
and what the look for the self-loop answers. -/

namespace Sys2Proof.Machine

theorem fetchOperands_within (sh : Shape) (a : Word) (s : State) : Within s (fetchOperands sh a s).state := by
  cases sh with
  | one i => exact .refl s
  | two mk => exact (readByte_within _ _ s).bind fun _ t _ => .refl t
  | three mk =>
    exact (readByte_within _ _ s).bind fun _ t _ => (readByte_within _ _ t).bind fun _ u _ => .refl u

/-- Fetching an instruction's operand bytes changes no register and no byte of work RAM. -/
theorem fetchOperands_keeps (sh : Shape) (a : Word) (s : State) :
    (fetchOperands sh a s).state.regs = s.regs ∧ (fetchOperands sh a s).state.bus.ram = s.bus.ram := by
  cases sh with
  | one i => exact ⟨rfl, rfl⟩
  | two mk =>
    have h := readByte_keeps .fetch (a + 1#16) s
    simp only [fetchOperands]
    cases hr : readByte .fetch (a + 1#16) s <;> rw [hr] at h <;> exact h
  | three mk =>
    have h := readByte_keeps .fetch (a + 1#16) s
    simp only [fetchOperands]
    cases hr : readByte .fetch (a + 1#16) s with
    | fault e t => rw [hr] at h; exact h
    | ok lo t =>
      rw [hr] at h
      have k := readByte_keeps .fetch (a + 2#16) t
      simp only [Res.bind_ok]
      cases hk : readByte .fetch (a + 2#16) t <;> rw [hk] at k <;> exact ⟨k.1.trans h.1, k.2.trans h.2⟩

/-- What executing an instruction step can be: a fault of a fetch, an undocumented opcode, or the meaning of the instruction
fetched, run at the boundary state with the bus as the fetches left it. -/
theorem runInstruction_cases (s : State) :
    (∃ op e t, runInstruction s = endWithFault s op e t ∧ Within s t) ∨
    (∃ op sh s1 i s2, readByte .fetch s.regs.pc s = .ok op s1 ∧ decodeOpcode op = some sh ∧
      fetchOperands sh s.regs.pc s1 = .ok i s2 ∧
      runInstruction s = recordDiagnostics s.regs.pc (some op) (exec i s2) ∧
      Within s s2 ∧ s2.regs = s.regs ∧ s2.bus.ram = s.bus.ram) := by
  have w1 := readByte_within .fetch s.regs.pc s
  have k1 := readByte_keeps .fetch s.regs.pc s
  unfold runInstruction
  cases h1 : readByte .fetch s.regs.pc s with
  | fault e t => rw [h1] at w1; exact .inl ⟨_, e, t, rfl, w1⟩
  | ok op s1 =>
    rw [h1] at w1 k1
    cases h2 : decodeOpcode op with
    | none => exact .inl ⟨some op, ⟨.illegalOpcode, .fetch, s.regs.pc, none⟩, s1, by simp only [h2], w1⟩
    | some sh =>
      have w2 := fetchOperands_within sh s.regs.pc s1
      have k2 := fetchOperands_keeps sh s.regs.pc s1
      cases h3 : fetchOperands sh s.regs.pc s1 with
      | fault e t => rw [h3] at w2; exact .inl ⟨some op, e, t, by simp only [h2, h3], w1.trans w2⟩
      | ok i s2 =>
        rw [h3] at w2 k2
        exact .inr ⟨op, sh, s1, i, s2, rfl, h2, h3, by simp only [h2, h3], w1.trans w2,
          k2.1.trans k1.1, k2.2.trans k1.2⟩

/-- What a step with an empty fault latch can be (R314). -/
theorem step_cases {s : State} (h : s.fault = none) :
    (∃ k, pendingInterrupt s = some k ∧ step s = interruptEntry k s) ∨
    (pendingInterrupt s = none ∧ step s = runInstruction s) := by
  unfold step runStep
  rw [h]
  cases hp : pendingInterrupt s with
  | some k => exact .inl ⟨k, rfl, rfl⟩
  | none => exact .inr ⟨rfl, rfl⟩

/-- A step in the faulted state (R304). -/
theorem step_of_fault {s : State} {r : FaultRecord} (h : s.fault = some r) : step s = .fault (Fault.report r s) := by
  unfold step
  rw [h]

/-! ### The self-loop -/

/-- A byte is stored only in RAM or in cartridge space. -/
theorem inRamOrCartridge_of_peek {a : Word} {s : State} {v : Byte} (h : s.peek a = some v) : inRamOrCartridge a = true := by
  unfold State.peek at h
  unfold inRamOrCartridge
  generalize decodeAddress a = d at h ⊢
  cases d <;> first | rfl | cases h

/-- Where bytes are stored, the look at PC answers them. -/
theorem bytesAtPc_of_peek {s : State} {op lo hi : Byte} (h0 : s.peek s.regs.pc = some op)
    (h1 : s.peek (s.regs.pc + 1#16) = some lo) (h2 : s.peek (s.regs.pc + 2#16) = some hi) :
    bytesAtPc s = some (op, lo, hi) := by
  simp only [bytesAtPc, inRamOrCartridge_of_peek h0, inRamOrCartridge_of_peek h1, inRamOrCartridge_of_peek h2,
    readByte_of_peek .fetch h0, readByte_of_peek .fetch h1, readByte_of_peek .fetch h2, Bool.and_self, if_true,
    Res.bind_ok]

/-- What the look at PC answers is what the three fetches of a step answer, one after another. -/
theorem reads_of_bytesAtPc {s : State} {op lo hi : Byte} (h : bytesAtPc s = some (op, lo, hi)) :
    ∃ s1 s2 s3, readByte .fetch s.regs.pc s = .ok op s1 ∧ readByte .fetch (s.regs.pc + 1#16) s1 = .ok lo s2 ∧
      readByte .fetch (s.regs.pc + 2#16) s2 = .ok hi s3 := by
  simp only [bytesAtPc] at h
  split at h
  · cases h0 : readByte .fetch s.regs.pc s with
    | fault e t => simp [h0, Res.bind] at h
    | ok a s1 =>
      cases h1 : readByte .fetch (s.regs.pc + 1#16) s1 with
      | fault e t => simp [h0, h1, Res.bind] at h
      | ok b s2 =>
        cases h2 : readByte .fetch (s.regs.pc + 2#16) s2 with
        | fault e t => simp [h0, h1, h2, Res.bind] at h
        | ok c s3 =>
          simp only [h0, h1, h2, Res.bind_ok, Option.some.injEq, Prod.mk.injEq] at h
          obtain ⟨rfl, rfl, rfl⟩ := h
          exact ⟨s1, s2, s3, rfl, h1, h2⟩
  · cases h

/-- The look at PC finds the self-loop exactly when it answers a `JMP` to PC (R127). -/
theorem atSelfLoop_iff (s : State) :
    atSelfLoop s = true ↔ bytesAtPc s = some (0x4C#8, lowByte s.regs.pc, highByte s.regs.pc) := by
  simp [atSelfLoop]

end Sys2Proof.Machine
end

