-- ==== Sys2Proof/Laws/Host.lean ====
section
/-! SUPPORT. What `power()` leaves and returns, and when a run has ended. -/

namespace Sys2Proof.Machine

/-- All that `power()` leaves behind: the vector's word in PC, or the faulted state of the vector read (R343). -/
theorem power_cases (s : State) :
    (∃ w t, readVector resetVector (clearCore s) = .ok w t ∧ s.power = t.withPc w ∧ Within (clearCore s) t) ∨
    (∃ e t, readVector resetVector (clearCore s) = .fault e t ∧ s.power = faultedState (clearCore s) none e t ∧
      Within (clearCore s) t) := by
  have hw := readVector_within resetVector (clearCore s)
  unfold State.power
  cases hv : readVector resetVector (clearCore s) with
  | ok w t => rw [hv] at hw; exact .inl ⟨w, t, rfl, by simp only [hv], hw⟩
  | fault e t => rw [hv] at hw; exact .inr ⟨e, t, rfl, by simp only [hv], hw⟩

/-- The host gets nothing from `power()` exactly when the vector read succeeds (R128). -/
theorem powerOutcome_next_iff (s : State) : powerOutcome s = .next s.power ↔ s.power.fault = none := by
  unfold powerOutcome
  cases s.power.fault <;> simp

/-- A fault of the vector read is what `power()` returns, with the faulted state (R128, R343). -/
theorem powerOutcome_of_fault {s : State} {r : FaultRecord} (h : s.power.fault = some r) :
    powerOutcome s = .fault (Fault.report r s.power) := by
  unfold powerOutcome
  rw [h]

/-- A run ends in success exactly at a self-loop with no fault latched (R127). -/
theorem runEnd_selfLoop_iff (s : State) : runEnd s = some .selfLoop ↔ s.fault = none ∧ atSelfLoop s = true := by
  unfold runEnd
  cases s.fault <;> cases atSelfLoop s <;> simp

/-- A run ends in failure exactly with a fault latched (R127). -/
theorem runEnd_faulted_iff (s : State) : runEnd s = some .faulted ↔ s.fault ≠ none := by
  unfold runEnd
  cases s.fault <;> cases atSelfLoop s <;> simp

end Sys2Proof.Machine
end

