-- ==== Sys2Proof/Laws/Operands.lean ====
section
/-! SUPPORT. The operand operations and the vector operations said once: resolving a mode is pure, a load changes no
register and no stored byte, and taking an interrupt and returning from one in closed form. -/

namespace Sys2Proof.Machine

/-! ### Addressing modes -/

theorem readByte_zeroPage (k : AccessKind) (b : Byte) (s : State) :
    readByte k (zeroPage b) s = .ok (Memory.read s.bus.ram b.toNat) s := by
  have hb : (BitVec.ofNat 11 b.toNat).toNat = b.toNat := by
    have := b.isLt
    simp only [BitVec.toNat_ofNat]
    omega
  simp only [readByte, zeroPage, decodeAddress_zeroPage, hb]

/-- All that reading a zero-page pointer does (R148, R149). -/
theorem readZeroPageWord_eq (p : Byte) (s : State) :
    readZeroPageWord p s =
      .ok (joinBytes (Memory.read s.bus.ram (p + 1#8).toNat) (Memory.read s.bus.ram p.toNat)) s := by
  simp only [readZeroPageWord, readByte_zeroPage, Res.bind_ok]

/-- Resolving a memory operand never faults and changes nothing. -/
theorem effectiveAddress_pure (m : MemArg) (s : State) : ∃ ea, effectiveAddress m s = .ok ea s := by
  cases m with
  | indX b => exact ⟨_, readZeroPageWord_eq _ _⟩
  | indY b => exact ⟨_, by simp only [effectiveAddress, readZeroPageWord_eq, Res.bind_ok]; rfl⟩
  | _ => exact ⟨_, rfl⟩

/-- A load changes no register and no byte of work RAM, whether it answers or faults. -/
theorem loadRead_keeps (src : ReadArg) (s : State) :
    (loadRead src s).state.regs = s.regs ∧ (loadRead src s).state.bus.ram = s.bus.ram := by
  cases src with
  | imm v => exact ⟨rfl, rfl⟩
  | mem m =>
    obtain ⟨ea, he⟩ := effectiveAddress_pure m s
    simp only [loadRead, he, Res.bind_ok]
    exact readByte_keeps .read ea s

/-- Two reads one after another change no register and no byte of work RAM. -/
theorem readTwo_keeps {α : Type} (k : AccessKind) (a b : Word) (f : Byte → Byte → α) (s : State) :
    ((readByte k a s).bind fun x s1 => (readByte k b s1).bind fun y s2 => .ok (f x y) s2).state.regs = s.regs ∧
    ((readByte k a s).bind fun x s1 => (readByte k b s1).bind fun y s2 => .ok (f x y) s2).state.bus.ram =
      s.bus.ram := by
  have h1 := readByte_keeps k a s
  cases hr : readByte k a s with
  | fault e t => rw [hr] at h1; exact h1
  | ok x t =>
    rw [hr] at h1
    have h2 := readByte_keeps k b t
    simp only [Res.bind_ok]
    cases hs : readByte k b t <;> rw [hs] at h2 <;> exact ⟨h2.1.trans h1.1, h2.2.trans h1.2⟩

/-- Resolving a jump changes no register and no byte of work RAM. -/
theorem jumpTarget_keeps (t : JumpArg) (s : State) :
    (jumpTarget t s).state.regs = s.regs ∧ (jumpTarget t s).state.bus.ram = s.bus.ram := by
  cases t with
  | abs w => exact ⟨rfl, rfl⟩
  | ind p => exact readTwo_keeps .read p _ (fun tl th => joinBytes th tl) s

/-- Reading a vector changes no register and no byte of work RAM. -/
theorem readVector_keeps (v : Word) (s : State) :
    (readVector v s).state.regs = s.regs ∧ (readVector v s).state.bus.ram = s.bus.ram :=
  readTwo_keeps .read v _ (fun lo hi => joinBytes hi lo) s

/-! ### What an instruction that completes has done, by the class of its form -/

theorem runForm_read {op : ReadOp} {src : ReadArg} {s t : State} (h : runForm (.read op src) s = .ok () t) :
    ∃ v u, loadRead src s = .ok v u ∧ t = u.withRegs (readEffect op v s.regs) ∧ t.bus.ram = s.bus.ram := by
  simp only [runForm] at h
  have k := loadRead_keeps src s
  cases hl : loadRead src s with
  | fault e u => rw [hl] at h; cases h
  | ok v u =>
    rw [hl] at h k
    simp only [Res.state_ok] at k
    cases h
    exact ⟨v, u, rfl, by rw [k.1], k.2⟩

theorem runForm_write {op : WriteOp} {m : MemArg} {s t : State} (h : runForm (.write op m) s = .ok () t) :
    ∃ ea, effectiveAddress m s = .ok ea s ∧ writeByte ea (writeValue op s.regs) s = .ok () t ∧ t.regs = s.regs := by
  obtain ⟨ea, he⟩ := effectiveAddress_pure m s
  simp only [runForm, he, Res.bind_ok] at h
  have k := writeByte_keeps_regs ea (writeValue op s.regs) s
  rw [h] at k
  exact ⟨ea, he, h, k⟩

theorem runModify_mem {f : Byte → Flags → Byte × Flags} {m : MemArg} {s t : State}
    (h : runModify f (.mem m) s = .ok () t) :
    ∃ ea v u x, effectiveAddress m s = .ok ea s ∧ readByte .read ea s = .ok v u ∧ u.regs = s.regs ∧
      u.bus.ram = s.bus.ram ∧ writeByte ea (f v s.regs.p).1 u = .ok () x ∧ x.regs = s.regs ∧
      t = x.withFlags (f v s.regs.p).2 := by
  obtain ⟨ea, he⟩ := effectiveAddress_pure m s
  simp only [runModify, he, Res.bind_ok] at h
  have k := readByte_keeps .read ea s
  cases hr : readByte .read ea s with
  | fault e u => rw [hr] at h; cases h
  | ok v u =>
    rw [hr] at h k
    simp only [Res.bind_ok, Res.state_ok] at h k
    rw [k.1] at h
    have k2 := writeByte_keeps_regs ea (f v s.regs.p).1 u
    cases hw : writeByte ea (f v s.regs.p).1 u with
    | fault e x => rw [hw] at h; cases h
    | ok a x =>
      rw [hw] at h k2
      cases h
      exact ⟨ea, v, u, x, he, hr, k.1, k.2, hw, k2.trans k.1, rfl⟩

theorem runForm_jump {j : JumpArg} {s t : State} (h : runForm (.jump j) s = .ok () t) :
    ∃ pc u, jumpTarget j s = .ok pc u ∧ t = u.withPc pc ∧ t.regs = { s.regs with pc := pc } ∧
      t.bus.ram = s.bus.ram := by
  simp only [runForm] at h
  have k := jumpTarget_keeps j s
  cases hj : jumpTarget j s with
  | fault e u => rw [hj] at h; cases h
  | ok w u =>
    rw [hj] at h k
    simp only [Res.state_ok] at k
    cases h
    exact ⟨w, u, rfl, rfl, by rw [State.withPc_regs, k.1], k.2⟩

/-! ### Interrupts in closed form -/

/-- The state after the three pushes of an interrupt. -/
def pushedThree (s : State) (ret : Word) (status : Byte) : State :=
  (((s.putStack s.regs.sp (highByte ret)).putStack (s.regs.sp - 1#8) (lowByte ret)).putStack (s.regs.sp - 2#8)
    status).withSp (s.regs.sp - 3#8)

/-- The two pushes of an interrupt, and setting I, are done before the vector is read, and never fault. -/
theorem takeInterrupt_eq (v ret : Word) (status : Byte) (s : State) :
    takeInterrupt v ret status s =
      (readVector v ((pushedThree s ret status).withFlags { s.regs.p with i := true })).bind fun target t =>
        .ok () (t.withPc target) := by
  have h : s.regs.sp - 2#8 - 1#8 = s.regs.sp - 3#8 := by bv_omega
  simp only [takeInterrupt, push16_eq, push8_eq, Res.bind_ok]
  simp [pushedThree, State.putStack, State.withSp, State.withBus, h]

/-- The reference mapper answers a vector's word from its program bank. -/
theorem readVector_reference {v : Word} {s : State} (h : 0x8000 ≤ v.toNat) (h1 : 0x8000 ≤ (v + 1#16).toNat)
    (hm : s.bus.mapper = .reference) :
    readVector v s =
      .ok (joinBytes (Memory.read s.bus.prg (prgIndex (v + 1#16))) (Memory.read s.bus.prg (prgIndex v))) s := by
  simp only [readVector, readByte, decodeAddress_cartridge h, decodeAddress_cartridge h1, mapperRead, hm, Res.bind_ok]

/-- All that taking an interrupt does with the reference mapper. -/
theorem takeInterrupt_reference {v : Word} (ret : Word) (status : Byte) {s : State} (h : 0x8000 ≤ v.toNat)
    (h1 : 0x8000 ≤ (v + 1#16).toNat) (hm : s.bus.mapper = .reference) :
    takeInterrupt v ret status s =
      .ok () (((pushedThree s ret status).withFlags { s.regs.p with i := true }).withPc
        (joinBytes (Memory.read s.bus.prg (prgIndex (v + 1#16))) (Memory.read s.bus.prg (prgIndex v)))) := by
  rw [takeInterrupt_eq, readVector_reference h h1 (by exact hm)]
  rfl

/-- All that returning from an interrupt does: the status is pulled, then the word, and neither faults. -/
theorem returnFromInterrupt_eq (s : State) :
    returnFromInterrupt s =
      let s1 := (pulled s).withFlags (Flags.deserialize (Memory.read s.bus.ram (stackIndex (s.regs.sp + 1#8))))
      .ok () ((pulled (pulled s1)).withPc
        (joinBytes (Memory.read s1.bus.ram (stackIndex (s1.regs.sp + 1#8 + 1#8)))
          (Memory.read s1.bus.ram (stackIndex (s1.regs.sp + 1#8))))) := by
  simp only [returnFromInterrupt, pull8_eq, pull16_eq, Res.bind_ok]

end Sys2Proof.Machine
end

