-- ==== Sys2Proof/Laws/PerInstr.lean ====
section
/-! SUPPORT. The family `EncodingForm`: the decoder finds each instruction's opcode in the opcode map, and filling the shape
found with the operand bytes of the instruction's form gives the instruction back. -/

namespace Sys2Proof.Laws

/-- Fill a shape with exactly the operand bytes it is short of. -/
def fillShape : Shape → List Byte → Option Instr
  | .one i, [] => some i
  | .two mk, [b] => some (mk b)
  | .three mk, [lo, hi] => some (mk (joinBytes hi lo))
  | _, _ => none

/-- The form of one instruction's encoding (spec/30_encoding.md R90, R95, R96). -/
def EncodingForm.Statement (i : Instr) : Prop :=
  ∃ sh, decodeOpcode i.opcode = some sh ∧ fillShape sh i.form.bytes = some i

theorem EncodingForm.ldaImm (v : Byte) : EncodingForm.Statement (.ldaImm v) :=
  ⟨.two .ldaImm, (rfl : decodeOpcode 0xA9#8 = some (.two .ldaImm)), rfl⟩
theorem EncodingForm.ldaZp (b : Byte) : EncodingForm.Statement (.ldaZp b) :=
  ⟨.two .ldaZp, (rfl : decodeOpcode 0xA5#8 = some (.two .ldaZp)), rfl⟩
theorem EncodingForm.ldaZpX (b : Byte) : EncodingForm.Statement (.ldaZpX b) :=
  ⟨.two .ldaZpX, (rfl : decodeOpcode 0xB5#8 = some (.two .ldaZpX)), rfl⟩
theorem EncodingForm.ldaAbs (w : Word) : EncodingForm.Statement (.ldaAbs w) :=
  ⟨.three .ldaAbs, (rfl : decodeOpcode 0xAD#8 = some (.three .ldaAbs)),
    congrArg (fun x => some (Instr.ldaAbs x)) (joinBytes_high_low w)⟩
theorem EncodingForm.ldaAbsX (w : Word) : EncodingForm.Statement (.ldaAbsX w) :=
  ⟨.three .ldaAbsX, (rfl : decodeOpcode 0xBD#8 = some (.three .ldaAbsX)),
    congrArg (fun x => some (Instr.ldaAbsX x)) (joinBytes_high_low w)⟩
theorem EncodingForm.ldaAbsY (w : Word) : EncodingForm.Statement (.ldaAbsY w) :=
  ⟨.three .ldaAbsY, (rfl : decodeOpcode 0xB9#8 = some (.three .ldaAbsY)),
    congrArg (fun x => some (Instr.ldaAbsY x)) (joinBytes_high_low w)⟩
theorem EncodingForm.ldaIndX (b : Byte) : EncodingForm.Statement (.ldaIndX b) :=
  ⟨.two .ldaIndX, (rfl : decodeOpcode 0xA1#8 = some (.two .ldaIndX)), rfl⟩
theorem EncodingForm.ldaIndY (b : Byte) : EncodingForm.Statement (.ldaIndY b) :=
  ⟨.two .ldaIndY, (rfl : decodeOpcode 0xB1#8 = some (.two .ldaIndY)), rfl⟩
theorem EncodingForm.ldxImm (v : Byte) : EncodingForm.Statement (.ldxImm v) :=
  ⟨.two .ldxImm, (rfl : decodeOpcode 0xA2#8 = some (.two .ldxImm)), rfl⟩
theorem EncodingForm.ldxZp (b : Byte) : EncodingForm.Statement (.ldxZp b) :=
  ⟨.two .ldxZp, (rfl : decodeOpcode 0xA6#8 = some (.two .ldxZp)), rfl⟩
theorem EncodingForm.ldxZpY (b : Byte) : EncodingForm.Statement (.ldxZpY b) :=
  ⟨.two .ldxZpY, (rfl : decodeOpcode 0xB6#8 = some (.two .ldxZpY)), rfl⟩
theorem EncodingForm.ldxAbs (w : Word) : EncodingForm.Statement (.ldxAbs w) :=
  ⟨.three .ldxAbs, (rfl : decodeOpcode 0xAE#8 = some (.three .ldxAbs)),
    congrArg (fun x => some (Instr.ldxAbs x)) (joinBytes_high_low w)⟩
theorem EncodingForm.ldxAbsY (w : Word) : EncodingForm.Statement (.ldxAbsY w) :=
  ⟨.three .ldxAbsY, (rfl : decodeOpcode 0xBE#8 = some (.three .ldxAbsY)),
    congrArg (fun x => some (Instr.ldxAbsY x)) (joinBytes_high_low w)⟩
theorem EncodingForm.ldyImm (v : Byte) : EncodingForm.Statement (.ldyImm v) :=
  ⟨.two .ldyImm, (rfl : decodeOpcode 0xA0#8 = some (.two .ldyImm)), rfl⟩
theorem EncodingForm.ldyZp (b : Byte) : EncodingForm.Statement (.ldyZp b) :=
  ⟨.two .ldyZp, (rfl : decodeOpcode 0xA4#8 = some (.two .ldyZp)), rfl⟩
theorem EncodingForm.ldyZpX (b : Byte) : EncodingForm.Statement (.ldyZpX b) :=
  ⟨.two .ldyZpX, (rfl : decodeOpcode 0xB4#8 = some (.two .ldyZpX)), rfl⟩
theorem EncodingForm.ldyAbs (w : Word) : EncodingForm.Statement (.ldyAbs w) :=
  ⟨.three .ldyAbs, (rfl : decodeOpcode 0xAC#8 = some (.three .ldyAbs)),
    congrArg (fun x => some (Instr.ldyAbs x)) (joinBytes_high_low w)⟩
theorem EncodingForm.ldyAbsX (w : Word) : EncodingForm.Statement (.ldyAbsX w) :=
  ⟨.three .ldyAbsX, (rfl : decodeOpcode 0xBC#8 = some (.three .ldyAbsX)),
    congrArg (fun x => some (Instr.ldyAbsX x)) (joinBytes_high_low w)⟩
theorem EncodingForm.staZp (b : Byte) : EncodingForm.Statement (.staZp b) :=
  ⟨.two .staZp, (rfl : decodeOpcode 0x85#8 = some (.two .staZp)), rfl⟩
theorem EncodingForm.staZpX (b : Byte) : EncodingForm.Statement (.staZpX b) :=
  ⟨.two .staZpX, (rfl : decodeOpcode 0x95#8 = some (.two .staZpX)), rfl⟩
theorem EncodingForm.staAbs (w : Word) : EncodingForm.Statement (.staAbs w) :=
  ⟨.three .staAbs, (rfl : decodeOpcode 0x8D#8 = some (.three .staAbs)),
    congrArg (fun x => some (Instr.staAbs x)) (joinBytes_high_low w)⟩
theorem EncodingForm.staAbsX (w : Word) : EncodingForm.Statement (.staAbsX w) :=
  ⟨.three .staAbsX, (rfl : decodeOpcode 0x9D#8 = some (.three .staAbsX)),
    congrArg (fun x => some (Instr.staAbsX x)) (joinBytes_high_low w)⟩
theorem EncodingForm.staAbsY (w : Word) : EncodingForm.Statement (.staAbsY w) :=
  ⟨.three .staAbsY, (rfl : decodeOpcode 0x99#8 = some (.three .staAbsY)),
    congrArg (fun x => some (Instr.staAbsY x)) (joinBytes_high_low w)⟩
theorem EncodingForm.staIndX (b : Byte) : EncodingForm.Statement (.staIndX b) :=
  ⟨.two .staIndX, (rfl : decodeOpcode 0x81#8 = some (.two .staIndX)), rfl⟩
theorem EncodingForm.staIndY (b : Byte) : EncodingForm.Statement (.staIndY b) :=
  ⟨.two .staIndY, (rfl : decodeOpcode 0x91#8 = some (.two .staIndY)), rfl⟩
theorem EncodingForm.stxZp (b : Byte) : EncodingForm.Statement (.stxZp b) :=
  ⟨.two .stxZp, (rfl : decodeOpcode 0x86#8 = some (.two .stxZp)), rfl⟩
theorem EncodingForm.stxZpY (b : Byte) : EncodingForm.Statement (.stxZpY b) :=
  ⟨.two .stxZpY, (rfl : decodeOpcode 0x96#8 = some (.two .stxZpY)), rfl⟩
theorem EncodingForm.stxAbs (w : Word) : EncodingForm.Statement (.stxAbs w) :=
  ⟨.three .stxAbs, (rfl : decodeOpcode 0x8E#8 = some (.three .stxAbs)),
    congrArg (fun x => some (Instr.stxAbs x)) (joinBytes_high_low w)⟩
theorem EncodingForm.styZp (b : Byte) : EncodingForm.Statement (.styZp b) :=
  ⟨.two .styZp, (rfl : decodeOpcode 0x84#8 = some (.two .styZp)), rfl⟩
theorem EncodingForm.styZpX (b : Byte) : EncodingForm.Statement (.styZpX b) :=
  ⟨.two .styZpX, (rfl : decodeOpcode 0x94#8 = some (.two .styZpX)), rfl⟩
theorem EncodingForm.styAbs (w : Word) : EncodingForm.Statement (.styAbs w) :=
  ⟨.three .styAbs, (rfl : decodeOpcode 0x8C#8 = some (.three .styAbs)),
    congrArg (fun x => some (Instr.styAbs x)) (joinBytes_high_low w)⟩
theorem EncodingForm.tax : EncodingForm.Statement (.tax) :=
  ⟨.one .tax, (rfl : decodeOpcode 0xAA#8 = some (.one .tax)), rfl⟩
theorem EncodingForm.tay : EncodingForm.Statement (.tay) :=
  ⟨.one .tay, (rfl : decodeOpcode 0xA8#8 = some (.one .tay)), rfl⟩
theorem EncodingForm.txa : EncodingForm.Statement (.txa) :=
  ⟨.one .txa, (rfl : decodeOpcode 0x8A#8 = some (.one .txa)), rfl⟩
theorem EncodingForm.tya : EncodingForm.Statement (.tya) :=
  ⟨.one .tya, (rfl : decodeOpcode 0x98#8 = some (.one .tya)), rfl⟩
theorem EncodingForm.tsx : EncodingForm.Statement (.tsx) :=
  ⟨.one .tsx, (rfl : decodeOpcode 0xBA#8 = some (.one .tsx)), rfl⟩
theorem EncodingForm.txs : EncodingForm.Statement (.txs) :=
  ⟨.one .txs, (rfl : decodeOpcode 0x9A#8 = some (.one .txs)), rfl⟩
theorem EncodingForm.pha : EncodingForm.Statement (.pha) :=
  ⟨.one .pha, (rfl : decodeOpcode 0x48#8 = some (.one .pha)), rfl⟩
theorem EncodingForm.php : EncodingForm.Statement (.php) :=
  ⟨.one .php, (rfl : decodeOpcode 0x08#8 = some (.one .php)), rfl⟩
theorem EncodingForm.pla : EncodingForm.Statement (.pla) :=
  ⟨.one .pla, (rfl : decodeOpcode 0x68#8 = some (.one .pla)), rfl⟩
theorem EncodingForm.plp : EncodingForm.Statement (.plp) :=
  ⟨.one .plp, (rfl : decodeOpcode 0x28#8 = some (.one .plp)), rfl⟩
theorem EncodingForm.adcImm (v : Byte) : EncodingForm.Statement (.adcImm v) :=
  ⟨.two .adcImm, (rfl : decodeOpcode 0x69#8 = some (.two .adcImm)), rfl⟩
theorem EncodingForm.adcZp (b : Byte) : EncodingForm.Statement (.adcZp b) :=
  ⟨.two .adcZp, (rfl : decodeOpcode 0x65#8 = some (.two .adcZp)), rfl⟩
theorem EncodingForm.adcZpX (b : Byte) : EncodingForm.Statement (.adcZpX b) :=
  ⟨.two .adcZpX, (rfl : decodeOpcode 0x75#8 = some (.two .adcZpX)), rfl⟩
theorem EncodingForm.adcAbs (w : Word) : EncodingForm.Statement (.adcAbs w) :=
  ⟨.three .adcAbs, (rfl : decodeOpcode 0x6D#8 = some (.three .adcAbs)),
    congrArg (fun x => some (Instr.adcAbs x)) (joinBytes_high_low w)⟩
theorem EncodingForm.adcAbsX (w : Word) : EncodingForm.Statement (.adcAbsX w) :=
  ⟨.three .adcAbsX, (rfl : decodeOpcode 0x7D#8 = some (.three .adcAbsX)),
    congrArg (fun x => some (Instr.adcAbsX x)) (joinBytes_high_low w)⟩
theorem EncodingForm.adcAbsY (w : Word) : EncodingForm.Statement (.adcAbsY w) :=
  ⟨.three .adcAbsY, (rfl : decodeOpcode 0x79#8 = some (.three .adcAbsY)),
    congrArg (fun x => some (Instr.adcAbsY x)) (joinBytes_high_low w)⟩
theorem EncodingForm.adcIndX (b : Byte) : EncodingForm.Statement (.adcIndX b) :=
  ⟨.two .adcIndX, (rfl : decodeOpcode 0x61#8 = some (.two .adcIndX)), rfl⟩
theorem EncodingForm.adcIndY (b : Byte) : EncodingForm.Statement (.adcIndY b) :=
  ⟨.two .adcIndY, (rfl : decodeOpcode 0x71#8 = some (.two .adcIndY)), rfl⟩
theorem EncodingForm.sbcImm (v : Byte) : EncodingForm.Statement (.sbcImm v) :=
  ⟨.two .sbcImm, (rfl : decodeOpcode 0xE9#8 = some (.two .sbcImm)), rfl⟩
theorem EncodingForm.sbcZp (b : Byte) : EncodingForm.Statement (.sbcZp b) :=
  ⟨.two .sbcZp, (rfl : decodeOpcode 0xE5#8 = some (.two .sbcZp)), rfl⟩
theorem EncodingForm.sbcZpX (b : Byte) : EncodingForm.Statement (.sbcZpX b) :=
  ⟨.two .sbcZpX, (rfl : decodeOpcode 0xF5#8 = some (.two .sbcZpX)), rfl⟩
theorem EncodingForm.sbcAbs (w : Word) : EncodingForm.Statement (.sbcAbs w) :=
  ⟨.three .sbcAbs, (rfl : decodeOpcode 0xED#8 = some (.three .sbcAbs)),
    congrArg (fun x => some (Instr.sbcAbs x)) (joinBytes_high_low w)⟩
theorem EncodingForm.sbcAbsX (w : Word) : EncodingForm.Statement (.sbcAbsX w) :=
  ⟨.three .sbcAbsX, (rfl : decodeOpcode 0xFD#8 = some (.three .sbcAbsX)),
    congrArg (fun x => some (Instr.sbcAbsX x)) (joinBytes_high_low w)⟩
theorem EncodingForm.sbcAbsY (w : Word) : EncodingForm.Statement (.sbcAbsY w) :=
  ⟨.three .sbcAbsY, (rfl : decodeOpcode 0xF9#8 = some (.three .sbcAbsY)),
    congrArg (fun x => some (Instr.sbcAbsY x)) (joinBytes_high_low w)⟩
theorem EncodingForm.sbcIndX (b : Byte) : EncodingForm.Statement (.sbcIndX b) :=
  ⟨.two .sbcIndX, (rfl : decodeOpcode 0xE1#8 = some (.two .sbcIndX)), rfl⟩
theorem EncodingForm.sbcIndY (b : Byte) : EncodingForm.Statement (.sbcIndY b) :=
  ⟨.two .sbcIndY, (rfl : decodeOpcode 0xF1#8 = some (.two .sbcIndY)), rfl⟩
theorem EncodingForm.andImm (v : Byte) : EncodingForm.Statement (.andImm v) :=
  ⟨.two .andImm, (rfl : decodeOpcode 0x29#8 = some (.two .andImm)), rfl⟩
theorem EncodingForm.andZp (b : Byte) : EncodingForm.Statement (.andZp b) :=
  ⟨.two .andZp, (rfl : decodeOpcode 0x25#8 = some (.two .andZp)), rfl⟩
theorem EncodingForm.andZpX (b : Byte) : EncodingForm.Statement (.andZpX b) :=
  ⟨.two .andZpX, (rfl : decodeOpcode 0x35#8 = some (.two .andZpX)), rfl⟩
theorem EncodingForm.andAbs (w : Word) : EncodingForm.Statement (.andAbs w) :=
  ⟨.three .andAbs, (rfl : decodeOpcode 0x2D#8 = some (.three .andAbs)),
    congrArg (fun x => some (Instr.andAbs x)) (joinBytes_high_low w)⟩
theorem EncodingForm.andAbsX (w : Word) : EncodingForm.Statement (.andAbsX w) :=
  ⟨.three .andAbsX, (rfl : decodeOpcode 0x3D#8 = some (.three .andAbsX)),
    congrArg (fun x => some (Instr.andAbsX x)) (joinBytes_high_low w)⟩
theorem EncodingForm.andAbsY (w : Word) : EncodingForm.Statement (.andAbsY w) :=
  ⟨.three .andAbsY, (rfl : decodeOpcode 0x39#8 = some (.three .andAbsY)),
    congrArg (fun x => some (Instr.andAbsY x)) (joinBytes_high_low w)⟩
theorem EncodingForm.andIndX (b : Byte) : EncodingForm.Statement (.andIndX b) :=
  ⟨.two .andIndX, (rfl : decodeOpcode 0x21#8 = some (.two .andIndX)), rfl⟩
theorem EncodingForm.andIndY (b : Byte) : EncodingForm.Statement (.andIndY b) :=
  ⟨.two .andIndY, (rfl : decodeOpcode 0x31#8 = some (.two .andIndY)), rfl⟩
theorem EncodingForm.oraImm (v : Byte) : EncodingForm.Statement (.oraImm v) :=
  ⟨.two .oraImm, (rfl : decodeOpcode 0x09#8 = some (.two .oraImm)), rfl⟩
theorem EncodingForm.oraZp (b : Byte) : EncodingForm.Statement (.oraZp b) :=
  ⟨.two .oraZp, (rfl : decodeOpcode 0x05#8 = some (.two .oraZp)), rfl⟩
theorem EncodingForm.oraZpX (b : Byte) : EncodingForm.Statement (.oraZpX b) :=
  ⟨.two .oraZpX, (rfl : decodeOpcode 0x15#8 = some (.two .oraZpX)), rfl⟩
theorem EncodingForm.oraAbs (w : Word) : EncodingForm.Statement (.oraAbs w) :=
  ⟨.three .oraAbs, (rfl : decodeOpcode 0x0D#8 = some (.three .oraAbs)),
    congrArg (fun x => some (Instr.oraAbs x)) (joinBytes_high_low w)⟩
theorem EncodingForm.oraAbsX (w : Word) : EncodingForm.Statement (.oraAbsX w) :=
  ⟨.three .oraAbsX, (rfl : decodeOpcode 0x1D#8 = some (.three .oraAbsX)),
    congrArg (fun x => some (Instr.oraAbsX x)) (joinBytes_high_low w)⟩
theorem EncodingForm.oraAbsY (w : Word) : EncodingForm.Statement (.oraAbsY w) :=
  ⟨.three .oraAbsY, (rfl : decodeOpcode 0x19#8 = some (.three .oraAbsY)),
    congrArg (fun x => some (Instr.oraAbsY x)) (joinBytes_high_low w)⟩
theorem EncodingForm.oraIndX (b : Byte) : EncodingForm.Statement (.oraIndX b) :=
  ⟨.two .oraIndX, (rfl : decodeOpcode 0x01#8 = some (.two .oraIndX)), rfl⟩
theorem EncodingForm.oraIndY (b : Byte) : EncodingForm.Statement (.oraIndY b) :=
  ⟨.two .oraIndY, (rfl : decodeOpcode 0x11#8 = some (.two .oraIndY)), rfl⟩
theorem EncodingForm.eorImm (v : Byte) : EncodingForm.Statement (.eorImm v) :=
  ⟨.two .eorImm, (rfl : decodeOpcode 0x49#8 = some (.two .eorImm)), rfl⟩
theorem EncodingForm.eorZp (b : Byte) : EncodingForm.Statement (.eorZp b) :=
  ⟨.two .eorZp, (rfl : decodeOpcode 0x45#8 = some (.two .eorZp)), rfl⟩
theorem EncodingForm.eorZpX (b : Byte) : EncodingForm.Statement (.eorZpX b) :=
  ⟨.two .eorZpX, (rfl : decodeOpcode 0x55#8 = some (.two .eorZpX)), rfl⟩
theorem EncodingForm.eorAbs (w : Word) : EncodingForm.Statement (.eorAbs w) :=
  ⟨.three .eorAbs, (rfl : decodeOpcode 0x4D#8 = some (.three .eorAbs)),
    congrArg (fun x => some (Instr.eorAbs x)) (joinBytes_high_low w)⟩
theorem EncodingForm.eorAbsX (w : Word) : EncodingForm.Statement (.eorAbsX w) :=
  ⟨.three .eorAbsX, (rfl : decodeOpcode 0x5D#8 = some (.three .eorAbsX)),
    congrArg (fun x => some (Instr.eorAbsX x)) (joinBytes_high_low w)⟩
theorem EncodingForm.eorAbsY (w : Word) : EncodingForm.Statement (.eorAbsY w) :=
  ⟨.three .eorAbsY, (rfl : decodeOpcode 0x59#8 = some (.three .eorAbsY)),
    congrArg (fun x => some (Instr.eorAbsY x)) (joinBytes_high_low w)⟩
theorem EncodingForm.eorIndX (b : Byte) : EncodingForm.Statement (.eorIndX b) :=
  ⟨.two .eorIndX, (rfl : decodeOpcode 0x41#8 = some (.two .eorIndX)), rfl⟩
theorem EncodingForm.eorIndY (b : Byte) : EncodingForm.Statement (.eorIndY b) :=
  ⟨.two .eorIndY, (rfl : decodeOpcode 0x51#8 = some (.two .eorIndY)), rfl⟩
theorem EncodingForm.bitZp (b : Byte) : EncodingForm.Statement (.bitZp b) :=
  ⟨.two .bitZp, (rfl : decodeOpcode 0x24#8 = some (.two .bitZp)), rfl⟩
theorem EncodingForm.bitAbs (w : Word) : EncodingForm.Statement (.bitAbs w) :=
  ⟨.three .bitAbs, (rfl : decodeOpcode 0x2C#8 = some (.three .bitAbs)),
    congrArg (fun x => some (Instr.bitAbs x)) (joinBytes_high_low w)⟩
theorem EncodingForm.cmpImm (v : Byte) : EncodingForm.Statement (.cmpImm v) :=
  ⟨.two .cmpImm, (rfl : decodeOpcode 0xC9#8 = some (.two .cmpImm)), rfl⟩
theorem EncodingForm.cmpZp (b : Byte) : EncodingForm.Statement (.cmpZp b) :=
  ⟨.two .cmpZp, (rfl : decodeOpcode 0xC5#8 = some (.two .cmpZp)), rfl⟩
theorem EncodingForm.cmpZpX (b : Byte) : EncodingForm.Statement (.cmpZpX b) :=
  ⟨.two .cmpZpX, (rfl : decodeOpcode 0xD5#8 = some (.two .cmpZpX)), rfl⟩
theorem EncodingForm.cmpAbs (w : Word) : EncodingForm.Statement (.cmpAbs w) :=
  ⟨.three .cmpAbs, (rfl : decodeOpcode 0xCD#8 = some (.three .cmpAbs)),
    congrArg (fun x => some (Instr.cmpAbs x)) (joinBytes_high_low w)⟩
theorem EncodingForm.cmpAbsX (w : Word) : EncodingForm.Statement (.cmpAbsX w) :=
  ⟨.three .cmpAbsX, (rfl : decodeOpcode 0xDD#8 = some (.three .cmpAbsX)),
    congrArg (fun x => some (Instr.cmpAbsX x)) (joinBytes_high_low w)⟩
theorem EncodingForm.cmpAbsY (w : Word) : EncodingForm.Statement (.cmpAbsY w) :=
  ⟨.three .cmpAbsY, (rfl : decodeOpcode 0xD9#8 = some (.three .cmpAbsY)),
    congrArg (fun x => some (Instr.cmpAbsY x)) (joinBytes_high_low w)⟩
theorem EncodingForm.cmpIndX (b : Byte) : EncodingForm.Statement (.cmpIndX b) :=
  ⟨.two .cmpIndX, (rfl : decodeOpcode 0xC1#8 = some (.two .cmpIndX)), rfl⟩
theorem EncodingForm.cmpIndY (b : Byte) : EncodingForm.Statement (.cmpIndY b) :=
  ⟨.two .cmpIndY, (rfl : decodeOpcode 0xD1#8 = some (.two .cmpIndY)), rfl⟩
theorem EncodingForm.cpxImm (v : Byte) : EncodingForm.Statement (.cpxImm v) :=
  ⟨.two .cpxImm, (rfl : decodeOpcode 0xE0#8 = some (.two .cpxImm)), rfl⟩
theorem EncodingForm.cpxZp (b : Byte) : EncodingForm.Statement (.cpxZp b) :=
  ⟨.two .cpxZp, (rfl : decodeOpcode 0xE4#8 = some (.two .cpxZp)), rfl⟩
theorem EncodingForm.cpxAbs (w : Word) : EncodingForm.Statement (.cpxAbs w) :=
  ⟨.three .cpxAbs, (rfl : decodeOpcode 0xEC#8 = some (.three .cpxAbs)),
    congrArg (fun x => some (Instr.cpxAbs x)) (joinBytes_high_low w)⟩
theorem EncodingForm.cpyImm (v : Byte) : EncodingForm.Statement (.cpyImm v) :=
  ⟨.two .cpyImm, (rfl : decodeOpcode 0xC0#8 = some (.two .cpyImm)), rfl⟩
theorem EncodingForm.cpyZp (b : Byte) : EncodingForm.Statement (.cpyZp b) :=
  ⟨.two .cpyZp, (rfl : decodeOpcode 0xC4#8 = some (.two .cpyZp)), rfl⟩
theorem EncodingForm.cpyAbs (w : Word) : EncodingForm.Statement (.cpyAbs w) :=
  ⟨.three .cpyAbs, (rfl : decodeOpcode 0xCC#8 = some (.three .cpyAbs)),
    congrArg (fun x => some (Instr.cpyAbs x)) (joinBytes_high_low w)⟩
theorem EncodingForm.aslZp (b : Byte) : EncodingForm.Statement (.aslZp b) :=
  ⟨.two .aslZp, (rfl : decodeOpcode 0x06#8 = some (.two .aslZp)), rfl⟩
theorem EncodingForm.aslZpX (b : Byte) : EncodingForm.Statement (.aslZpX b) :=
  ⟨.two .aslZpX, (rfl : decodeOpcode 0x16#8 = some (.two .aslZpX)), rfl⟩
theorem EncodingForm.aslAbs (w : Word) : EncodingForm.Statement (.aslAbs w) :=
  ⟨.three .aslAbs, (rfl : decodeOpcode 0x0E#8 = some (.three .aslAbs)),
    congrArg (fun x => some (Instr.aslAbs x)) (joinBytes_high_low w)⟩
theorem EncodingForm.aslAbsX (w : Word) : EncodingForm.Statement (.aslAbsX w) :=
  ⟨.three .aslAbsX, (rfl : decodeOpcode 0x1E#8 = some (.three .aslAbsX)),
    congrArg (fun x => some (Instr.aslAbsX x)) (joinBytes_high_low w)⟩
theorem EncodingForm.aslAcc : EncodingForm.Statement (.aslAcc) :=
  ⟨.one .aslAcc, (rfl : decodeOpcode 0x0A#8 = some (.one .aslAcc)), rfl⟩
theorem EncodingForm.lsrZp (b : Byte) : EncodingForm.Statement (.lsrZp b) :=
  ⟨.two .lsrZp, (rfl : decodeOpcode 0x46#8 = some (.two .lsrZp)), rfl⟩
theorem EncodingForm.lsrZpX (b : Byte) : EncodingForm.Statement (.lsrZpX b) :=
  ⟨.two .lsrZpX, (rfl : decodeOpcode 0x56#8 = some (.two .lsrZpX)), rfl⟩
theorem EncodingForm.lsrAbs (w : Word) : EncodingForm.Statement (.lsrAbs w) :=
  ⟨.three .lsrAbs, (rfl : decodeOpcode 0x4E#8 = some (.three .lsrAbs)),
    congrArg (fun x => some (Instr.lsrAbs x)) (joinBytes_high_low w)⟩
theorem EncodingForm.lsrAbsX (w : Word) : EncodingForm.Statement (.lsrAbsX w) :=
  ⟨.three .lsrAbsX, (rfl : decodeOpcode 0x5E#8 = some (.three .lsrAbsX)),
    congrArg (fun x => some (Instr.lsrAbsX x)) (joinBytes_high_low w)⟩
theorem EncodingForm.lsrAcc : EncodingForm.Statement (.lsrAcc) :=
  ⟨.one .lsrAcc, (rfl : decodeOpcode 0x4A#8 = some (.one .lsrAcc)), rfl⟩
theorem EncodingForm.rolZp (b : Byte) : EncodingForm.Statement (.rolZp b) :=
  ⟨.two .rolZp, (rfl : decodeOpcode 0x26#8 = some (.two .rolZp)), rfl⟩
theorem EncodingForm.rolZpX (b : Byte) : EncodingForm.Statement (.rolZpX b) :=
  ⟨.two .rolZpX, (rfl : decodeOpcode 0x36#8 = some (.two .rolZpX)), rfl⟩
theorem EncodingForm.rolAbs (w : Word) : EncodingForm.Statement (.rolAbs w) :=
  ⟨.three .rolAbs, (rfl : decodeOpcode 0x2E#8 = some (.three .rolAbs)),
    congrArg (fun x => some (Instr.rolAbs x)) (joinBytes_high_low w)⟩
theorem EncodingForm.rolAbsX (w : Word) : EncodingForm.Statement (.rolAbsX w) :=
  ⟨.three .rolAbsX, (rfl : decodeOpcode 0x3E#8 = some (.three .rolAbsX)),
    congrArg (fun x => some (Instr.rolAbsX x)) (joinBytes_high_low w)⟩
theorem EncodingForm.rolAcc : EncodingForm.Statement (.rolAcc) :=
  ⟨.one .rolAcc, (rfl : decodeOpcode 0x2A#8 = some (.one .rolAcc)), rfl⟩
theorem EncodingForm.rorZp (b : Byte) : EncodingForm.Statement (.rorZp b) :=
  ⟨.two .rorZp, (rfl : decodeOpcode 0x66#8 = some (.two .rorZp)), rfl⟩
theorem EncodingForm.rorZpX (b : Byte) : EncodingForm.Statement (.rorZpX b) :=
  ⟨.two .rorZpX, (rfl : decodeOpcode 0x76#8 = some (.two .rorZpX)), rfl⟩
theorem EncodingForm.rorAbs (w : Word) : EncodingForm.Statement (.rorAbs w) :=
  ⟨.three .rorAbs, (rfl : decodeOpcode 0x6E#8 = some (.three .rorAbs)),
    congrArg (fun x => some (Instr.rorAbs x)) (joinBytes_high_low w)⟩
theorem EncodingForm.rorAbsX (w : Word) : EncodingForm.Statement (.rorAbsX w) :=
  ⟨.three .rorAbsX, (rfl : decodeOpcode 0x7E#8 = some (.three .rorAbsX)),
    congrArg (fun x => some (Instr.rorAbsX x)) (joinBytes_high_low w)⟩
theorem EncodingForm.rorAcc : EncodingForm.Statement (.rorAcc) :=
  ⟨.one .rorAcc, (rfl : decodeOpcode 0x6A#8 = some (.one .rorAcc)), rfl⟩
theorem EncodingForm.incZp (b : Byte) : EncodingForm.Statement (.incZp b) :=
  ⟨.two .incZp, (rfl : decodeOpcode 0xE6#8 = some (.two .incZp)), rfl⟩
theorem EncodingForm.incZpX (b : Byte) : EncodingForm.Statement (.incZpX b) :=
  ⟨.two .incZpX, (rfl : decodeOpcode 0xF6#8 = some (.two .incZpX)), rfl⟩
theorem EncodingForm.incAbs (w : Word) : EncodingForm.Statement (.incAbs w) :=
  ⟨.three .incAbs, (rfl : decodeOpcode 0xEE#8 = some (.three .incAbs)),
    congrArg (fun x => some (Instr.incAbs x)) (joinBytes_high_low w)⟩
theorem EncodingForm.incAbsX (w : Word) : EncodingForm.Statement (.incAbsX w) :=
  ⟨.three .incAbsX, (rfl : decodeOpcode 0xFE#8 = some (.three .incAbsX)),
    congrArg (fun x => some (Instr.incAbsX x)) (joinBytes_high_low w)⟩
theorem EncodingForm.decZp (b : Byte) : EncodingForm.Statement (.decZp b) :=
  ⟨.two .decZp, (rfl : decodeOpcode 0xC6#8 = some (.two .decZp)), rfl⟩
theorem EncodingForm.decZpX (b : Byte) : EncodingForm.Statement (.decZpX b) :=
  ⟨.two .decZpX, (rfl : decodeOpcode 0xD6#8 = some (.two .decZpX)), rfl⟩
theorem EncodingForm.decAbs (w : Word) : EncodingForm.Statement (.decAbs w) :=
  ⟨.three .decAbs, (rfl : decodeOpcode 0xCE#8 = some (.three .decAbs)),
    congrArg (fun x => some (Instr.decAbs x)) (joinBytes_high_low w)⟩
theorem EncodingForm.decAbsX (w : Word) : EncodingForm.Statement (.decAbsX w) :=
  ⟨.three .decAbsX, (rfl : decodeOpcode 0xDE#8 = some (.three .decAbsX)),
    congrArg (fun x => some (Instr.decAbsX x)) (joinBytes_high_low w)⟩
theorem EncodingForm.inx : EncodingForm.Statement (.inx) :=
  ⟨.one .inx, (rfl : decodeOpcode 0xE8#8 = some (.one .inx)), rfl⟩
theorem EncodingForm.iny : EncodingForm.Statement (.iny) :=
  ⟨.one .iny, (rfl : decodeOpcode 0xC8#8 = some (.one .iny)), rfl⟩
theorem EncodingForm.dex : EncodingForm.Statement (.dex) :=
  ⟨.one .dex, (rfl : decodeOpcode 0xCA#8 = some (.one .dex)), rfl⟩
theorem EncodingForm.dey : EncodingForm.Statement (.dey) :=
  ⟨.one .dey, (rfl : decodeOpcode 0x88#8 = some (.one .dey)), rfl⟩
theorem EncodingForm.bcc (d : Byte) : EncodingForm.Statement (.bcc d) :=
  ⟨.two .bcc, (rfl : decodeOpcode 0x90#8 = some (.two .bcc)), rfl⟩
theorem EncodingForm.bcs (d : Byte) : EncodingForm.Statement (.bcs d) :=
  ⟨.two .bcs, (rfl : decodeOpcode 0xB0#8 = some (.two .bcs)), rfl⟩
theorem EncodingForm.beq (d : Byte) : EncodingForm.Statement (.beq d) :=
  ⟨.two .beq, (rfl : decodeOpcode 0xF0#8 = some (.two .beq)), rfl⟩
theorem EncodingForm.bmi (d : Byte) : EncodingForm.Statement (.bmi d) :=
  ⟨.two .bmi, (rfl : decodeOpcode 0x30#8 = some (.two .bmi)), rfl⟩
theorem EncodingForm.bne (d : Byte) : EncodingForm.Statement (.bne d) :=
  ⟨.two .bne, (rfl : decodeOpcode 0xD0#8 = some (.two .bne)), rfl⟩
theorem EncodingForm.bpl (d : Byte) : EncodingForm.Statement (.bpl d) :=
  ⟨.two .bpl, (rfl : decodeOpcode 0x10#8 = some (.two .bpl)), rfl⟩
theorem EncodingForm.bvc (d : Byte) : EncodingForm.Statement (.bvc d) :=
  ⟨.two .bvc, (rfl : decodeOpcode 0x50#8 = some (.two .bvc)), rfl⟩
theorem EncodingForm.bvs (d : Byte) : EncodingForm.Statement (.bvs d) :=
  ⟨.two .bvs, (rfl : decodeOpcode 0x70#8 = some (.two .bvs)), rfl⟩
theorem EncodingForm.jmpAbs (w : Word) : EncodingForm.Statement (.jmpAbs w) :=
  ⟨.three .jmpAbs, (rfl : decodeOpcode 0x4C#8 = some (.three .jmpAbs)),
    congrArg (fun x => some (Instr.jmpAbs x)) (joinBytes_high_low w)⟩
theorem EncodingForm.jmpInd (w : Word) : EncodingForm.Statement (.jmpInd w) :=
  ⟨.three .jmpInd, (rfl : decodeOpcode 0x6C#8 = some (.three .jmpInd)),
    congrArg (fun x => some (Instr.jmpInd x)) (joinBytes_high_low w)⟩
theorem EncodingForm.jsr (w : Word) : EncodingForm.Statement (.jsr w) :=
  ⟨.three .jsr, (rfl : decodeOpcode 0x20#8 = some (.three .jsr)),
    congrArg (fun x => some (Instr.jsr x)) (joinBytes_high_low w)⟩
theorem EncodingForm.rts : EncodingForm.Statement (.rts) :=
  ⟨.one .rts, (rfl : decodeOpcode 0x60#8 = some (.one .rts)), rfl⟩
theorem EncodingForm.rti : EncodingForm.Statement (.rti) :=
  ⟨.one .rti, (rfl : decodeOpcode 0x40#8 = some (.one .rti)), rfl⟩
theorem EncodingForm.brk : EncodingForm.Statement (.brk) :=
  ⟨.one .brk, (rfl : decodeOpcode 0x00#8 = some (.one .brk)), rfl⟩
theorem EncodingForm.clc : EncodingForm.Statement (.clc) :=
  ⟨.one .clc, (rfl : decodeOpcode 0x18#8 = some (.one .clc)), rfl⟩
theorem EncodingForm.cld : EncodingForm.Statement (.cld) :=
  ⟨.one .cld, (rfl : decodeOpcode 0xD8#8 = some (.one .cld)), rfl⟩
theorem EncodingForm.cli : EncodingForm.Statement (.cli) :=
  ⟨.one .cli, (rfl : decodeOpcode 0x58#8 = some (.one .cli)), rfl⟩
theorem EncodingForm.clv : EncodingForm.Statement (.clv) :=
  ⟨.one .clv, (rfl : decodeOpcode 0xB8#8 = some (.one .clv)), rfl⟩
theorem EncodingForm.sec : EncodingForm.Statement (.sec) :=
  ⟨.one .sec, (rfl : decodeOpcode 0x38#8 = some (.one .sec)), rfl⟩
theorem EncodingForm.sed : EncodingForm.Statement (.sed) :=
  ⟨.one .sed, (rfl : decodeOpcode 0xF8#8 = some (.one .sed)), rfl⟩
theorem EncodingForm.sei : EncodingForm.Statement (.sei) :=
  ⟨.one .sei, (rfl : decodeOpcode 0x78#8 = some (.one .sei)), rfl⟩
theorem EncodingForm.nop : EncodingForm.Statement (.nop) :=
  ⟨.one .nop, (rfl : decodeOpcode 0xEA#8 = some (.one .nop)), rfl⟩

end Sys2Proof.Laws
end

