-- ==== Sys2Proof/Tests/Slice0.lean ====
section
/-! SUPPORT. Tests of the model, and a witness for the hypotheses of each obligation. Every expected value comes from the
spec: the vectors of spec/95_test_vectors.md, or the rule named. -/

namespace Sys2Proof.Tests

open Sys2Proof.Machine Sys2Proof.Claims

/-! ### WellFormed: an ill-formed term for each check -/

/-- LDX has no Zero Page,X mode (R154). -/
theorem test_wellFormed_read : (Form.read .ldx (.mem (.zpX 0x00#8))).wellFormed = false := by decide

/-- BIT has no Immediate mode (R154). -/
theorem test_wellFormed_read_immediate : (Form.read .bit (.imm 0x00#8)).wellFormed = false := by decide

/-- STX has no Absolute,X mode (R154). -/
theorem test_wellFormed_write : (Form.write .stx (.absX 0x0000#16)).wellFormed = false := by decide

/-- INC has no Accumulator mode (R154). -/
theorem test_wellFormed_modify : (Form.modify .inc .acc).wellFormed = false := by decide

/-! ### Decode: a word of every constructor, written out from the encodings of spec/30_encoding.md R100 -/

theorem test_decode_row0 :
    [[0x00#8], [0x01#8, 0x9A#8], [0x05#8, 0x9A#8], [0x06#8, 0x9A#8], [0x08#8], [0x09#8, 0x9A#8], [0x0A#8],
    [0x0D#8, 0x34#8, 0x12#8], [0x0E#8, 0x34#8, 0x12#8]].map decode =
   [.ok (.brk, []), .ok (.oraIndX 0x9A#8, []), .ok (.oraZp 0x9A#8, []), .ok (.aslZp 0x9A#8, []),
    .ok (.php, []), .ok (.oraImm 0x9A#8, []), .ok (.aslAcc, []), .ok (.oraAbs 0x1234#16, []),
    .ok (.aslAbs 0x1234#16, [])] := rfl

theorem test_decode_row1 :
    [[0x10#8, 0x9A#8], [0x11#8, 0x9A#8], [0x15#8, 0x9A#8], [0x16#8, 0x9A#8], [0x18#8],
    [0x19#8, 0x34#8, 0x12#8], [0x1D#8, 0x34#8, 0x12#8], [0x1E#8, 0x34#8, 0x12#8]].map decode =
   [.ok (.bpl 0x9A#8, []), .ok (.oraIndY 0x9A#8, []), .ok (.oraZpX 0x9A#8, []), .ok (.aslZpX 0x9A#8, []),
    .ok (.clc, []), .ok (.oraAbsY 0x1234#16, []), .ok (.oraAbsX 0x1234#16, []), .ok (.aslAbsX 0x1234#16, [])] := rfl

theorem test_decode_row2 :
    [[0x20#8, 0x34#8, 0x12#8], [0x21#8, 0x9A#8], [0x24#8, 0x9A#8], [0x25#8, 0x9A#8], [0x26#8, 0x9A#8],
    [0x28#8], [0x29#8, 0x9A#8], [0x2A#8], [0x2C#8, 0x34#8, 0x12#8], [0x2D#8, 0x34#8, 0x12#8],
    [0x2E#8, 0x34#8, 0x12#8]].map decode =
   [.ok (.jsr 0x1234#16, []), .ok (.andIndX 0x9A#8, []), .ok (.bitZp 0x9A#8, []), .ok (.andZp 0x9A#8, []),
    .ok (.rolZp 0x9A#8, []), .ok (.plp, []), .ok (.andImm 0x9A#8, []), .ok (.rolAcc, []),
    .ok (.bitAbs 0x1234#16, []), .ok (.andAbs 0x1234#16, []), .ok (.rolAbs 0x1234#16, [])] := rfl

theorem test_decode_row3 :
    [[0x30#8, 0x9A#8], [0x31#8, 0x9A#8], [0x35#8, 0x9A#8], [0x36#8, 0x9A#8], [0x38#8],
    [0x39#8, 0x34#8, 0x12#8], [0x3D#8, 0x34#8, 0x12#8], [0x3E#8, 0x34#8, 0x12#8]].map decode =
   [.ok (.bmi 0x9A#8, []), .ok (.andIndY 0x9A#8, []), .ok (.andZpX 0x9A#8, []), .ok (.rolZpX 0x9A#8, []),
    .ok (.sec, []), .ok (.andAbsY 0x1234#16, []), .ok (.andAbsX 0x1234#16, []), .ok (.rolAbsX 0x1234#16, [])] := rfl

theorem test_decode_row4 :
    [[0x40#8], [0x41#8, 0x9A#8], [0x45#8, 0x9A#8], [0x46#8, 0x9A#8], [0x48#8], [0x49#8, 0x9A#8], [0x4A#8],
    [0x4C#8, 0x34#8, 0x12#8], [0x4D#8, 0x34#8, 0x12#8], [0x4E#8, 0x34#8, 0x12#8]].map decode =
   [.ok (.rti, []), .ok (.eorIndX 0x9A#8, []), .ok (.eorZp 0x9A#8, []), .ok (.lsrZp 0x9A#8, []),
    .ok (.pha, []), .ok (.eorImm 0x9A#8, []), .ok (.lsrAcc, []), .ok (.jmpAbs 0x1234#16, []),
    .ok (.eorAbs 0x1234#16, []), .ok (.lsrAbs 0x1234#16, [])] := rfl

theorem test_decode_row5 :
    [[0x50#8, 0x9A#8], [0x51#8, 0x9A#8], [0x55#8, 0x9A#8], [0x56#8, 0x9A#8], [0x58#8],
    [0x59#8, 0x34#8, 0x12#8], [0x5D#8, 0x34#8, 0x12#8], [0x5E#8, 0x34#8, 0x12#8]].map decode =
   [.ok (.bvc 0x9A#8, []), .ok (.eorIndY 0x9A#8, []), .ok (.eorZpX 0x9A#8, []), .ok (.lsrZpX 0x9A#8, []),
    .ok (.cli, []), .ok (.eorAbsY 0x1234#16, []), .ok (.eorAbsX 0x1234#16, []), .ok (.lsrAbsX 0x1234#16, [])] := rfl

theorem test_decode_row6 :
    [[0x60#8], [0x61#8, 0x9A#8], [0x65#8, 0x9A#8], [0x66#8, 0x9A#8], [0x68#8], [0x69#8, 0x9A#8], [0x6A#8],
    [0x6C#8, 0x34#8, 0x12#8], [0x6D#8, 0x34#8, 0x12#8], [0x6E#8, 0x34#8, 0x12#8]].map decode =
   [.ok (.rts, []), .ok (.adcIndX 0x9A#8, []), .ok (.adcZp 0x9A#8, []), .ok (.rorZp 0x9A#8, []),
    .ok (.pla, []), .ok (.adcImm 0x9A#8, []), .ok (.rorAcc, []), .ok (.jmpInd 0x1234#16, []),
    .ok (.adcAbs 0x1234#16, []), .ok (.rorAbs 0x1234#16, [])] := rfl

theorem test_decode_row7 :
    [[0x70#8, 0x9A#8], [0x71#8, 0x9A#8], [0x75#8, 0x9A#8], [0x76#8, 0x9A#8], [0x78#8],
    [0x79#8, 0x34#8, 0x12#8], [0x7D#8, 0x34#8, 0x12#8], [0x7E#8, 0x34#8, 0x12#8]].map decode =
   [.ok (.bvs 0x9A#8, []), .ok (.adcIndY 0x9A#8, []), .ok (.adcZpX 0x9A#8, []), .ok (.rorZpX 0x9A#8, []),
    .ok (.sei, []), .ok (.adcAbsY 0x1234#16, []), .ok (.adcAbsX 0x1234#16, []), .ok (.rorAbsX 0x1234#16, [])] := rfl

theorem test_decode_row8 :
    [[0x81#8, 0x9A#8], [0x84#8, 0x9A#8], [0x85#8, 0x9A#8], [0x86#8, 0x9A#8], [0x88#8], [0x8A#8],
    [0x8C#8, 0x34#8, 0x12#8], [0x8D#8, 0x34#8, 0x12#8], [0x8E#8, 0x34#8, 0x12#8]].map decode =
   [.ok (.staIndX 0x9A#8, []), .ok (.styZp 0x9A#8, []), .ok (.staZp 0x9A#8, []), .ok (.stxZp 0x9A#8, []),
    .ok (.dey, []), .ok (.txa, []), .ok (.styAbs 0x1234#16, []), .ok (.staAbs 0x1234#16, []),
    .ok (.stxAbs 0x1234#16, [])] := rfl

theorem test_decode_row9 :
    [[0x90#8, 0x9A#8], [0x91#8, 0x9A#8], [0x94#8, 0x9A#8], [0x95#8, 0x9A#8], [0x96#8, 0x9A#8], [0x98#8],
    [0x99#8, 0x34#8, 0x12#8], [0x9A#8], [0x9D#8, 0x34#8, 0x12#8]].map decode =
   [.ok (.bcc 0x9A#8, []), .ok (.staIndY 0x9A#8, []), .ok (.styZpX 0x9A#8, []), .ok (.staZpX 0x9A#8, []),
    .ok (.stxZpY 0x9A#8, []), .ok (.tya, []), .ok (.staAbsY 0x1234#16, []), .ok (.txs, []),
    .ok (.staAbsX 0x1234#16, [])] := rfl

theorem test_decode_rowA :
    [[0xA0#8, 0x9A#8], [0xA1#8, 0x9A#8], [0xA2#8, 0x9A#8], [0xA4#8, 0x9A#8], [0xA5#8, 0x9A#8],
    [0xA6#8, 0x9A#8], [0xA8#8], [0xA9#8, 0x9A#8], [0xAA#8], [0xAC#8, 0x34#8, 0x12#8],
    [0xAD#8, 0x34#8, 0x12#8], [0xAE#8, 0x34#8, 0x12#8]].map decode =
   [.ok (.ldyImm 0x9A#8, []), .ok (.ldaIndX 0x9A#8, []), .ok (.ldxImm 0x9A#8, []), .ok (.ldyZp 0x9A#8, []),
    .ok (.ldaZp 0x9A#8, []), .ok (.ldxZp 0x9A#8, []), .ok (.tay, []), .ok (.ldaImm 0x9A#8, []),
    .ok (.tax, []), .ok (.ldyAbs 0x1234#16, []), .ok (.ldaAbs 0x1234#16, []), .ok (.ldxAbs 0x1234#16, [])] := rfl

theorem test_decode_rowB :
    [[0xB0#8, 0x9A#8], [0xB1#8, 0x9A#8], [0xB4#8, 0x9A#8], [0xB5#8, 0x9A#8], [0xB6#8, 0x9A#8], [0xB8#8],
    [0xB9#8, 0x34#8, 0x12#8], [0xBA#8], [0xBC#8, 0x34#8, 0x12#8], [0xBD#8, 0x34#8, 0x12#8],
    [0xBE#8, 0x34#8, 0x12#8]].map decode =
   [.ok (.bcs 0x9A#8, []), .ok (.ldaIndY 0x9A#8, []), .ok (.ldyZpX 0x9A#8, []), .ok (.ldaZpX 0x9A#8, []),
    .ok (.ldxZpY 0x9A#8, []), .ok (.clv, []), .ok (.ldaAbsY 0x1234#16, []), .ok (.tsx, []),
    .ok (.ldyAbsX 0x1234#16, []), .ok (.ldaAbsX 0x1234#16, []), .ok (.ldxAbsY 0x1234#16, [])] := rfl

theorem test_decode_rowC :
    [[0xC0#8, 0x9A#8], [0xC1#8, 0x9A#8], [0xC4#8, 0x9A#8], [0xC5#8, 0x9A#8], [0xC6#8, 0x9A#8], [0xC8#8],
    [0xC9#8, 0x9A#8], [0xCA#8], [0xCC#8, 0x34#8, 0x12#8], [0xCD#8, 0x34#8, 0x12#8], [0xCE#8, 0x34#8, 0x12#8]].map decode =
   [.ok (.cpyImm 0x9A#8, []), .ok (.cmpIndX 0x9A#8, []), .ok (.cpyZp 0x9A#8, []), .ok (.cmpZp 0x9A#8, []),
    .ok (.decZp 0x9A#8, []), .ok (.iny, []), .ok (.cmpImm 0x9A#8, []), .ok (.dex, []),
    .ok (.cpyAbs 0x1234#16, []), .ok (.cmpAbs 0x1234#16, []), .ok (.decAbs 0x1234#16, [])] := rfl

theorem test_decode_rowD :
    [[0xD0#8, 0x9A#8], [0xD1#8, 0x9A#8], [0xD5#8, 0x9A#8], [0xD6#8, 0x9A#8], [0xD8#8],
    [0xD9#8, 0x34#8, 0x12#8], [0xDD#8, 0x34#8, 0x12#8], [0xDE#8, 0x34#8, 0x12#8]].map decode =
   [.ok (.bne 0x9A#8, []), .ok (.cmpIndY 0x9A#8, []), .ok (.cmpZpX 0x9A#8, []), .ok (.decZpX 0x9A#8, []),
    .ok (.cld, []), .ok (.cmpAbsY 0x1234#16, []), .ok (.cmpAbsX 0x1234#16, []), .ok (.decAbsX 0x1234#16, [])] := rfl

theorem test_decode_rowE :
    [[0xE0#8, 0x9A#8], [0xE1#8, 0x9A#8], [0xE4#8, 0x9A#8], [0xE5#8, 0x9A#8], [0xE6#8, 0x9A#8], [0xE8#8],
    [0xE9#8, 0x9A#8], [0xEA#8], [0xEC#8, 0x34#8, 0x12#8], [0xED#8, 0x34#8, 0x12#8], [0xEE#8, 0x34#8, 0x12#8]].map decode =
   [.ok (.cpxImm 0x9A#8, []), .ok (.sbcIndX 0x9A#8, []), .ok (.cpxZp 0x9A#8, []), .ok (.sbcZp 0x9A#8, []),
    .ok (.incZp 0x9A#8, []), .ok (.inx, []), .ok (.sbcImm 0x9A#8, []), .ok (.nop, []),
    .ok (.cpxAbs 0x1234#16, []), .ok (.sbcAbs 0x1234#16, []), .ok (.incAbs 0x1234#16, [])] := rfl

theorem test_decode_rowF :
    [[0xF0#8, 0x9A#8], [0xF1#8, 0x9A#8], [0xF5#8, 0x9A#8], [0xF6#8, 0x9A#8], [0xF8#8],
    [0xF9#8, 0x34#8, 0x12#8], [0xFD#8, 0x34#8, 0x12#8], [0xFE#8, 0x34#8, 0x12#8]].map decode =
   [.ok (.beq 0x9A#8, []), .ok (.sbcIndY 0x9A#8, []), .ok (.sbcZpX 0x9A#8, []), .ok (.incZpX 0x9A#8, []),
    .ok (.sed, []), .ok (.sbcAbsY 0x1234#16, []), .ok (.sbcAbsX 0x1234#16, []), .ok (.incAbsX 0x1234#16, [])] := rfl

theorem test_decode_undocumented : decode [0xFF#8] = .error (.illegalOpcode 0xFF#8) := rfl

theorem test_encode_little_endian : encode (.jmpAbs 0x1234#16) = [0x4C#8, 0x34#8, 0x12#8] := rfl

/-! ### One step, with the vectors of spec/95_test_vectors.md -/

/-- The state after `power()`, with PC at `a` and bytes placed there. -/
def placed (a : Word) (bytes : List Byte) : State := pokeBytes bytes a (State.reset.withPc a)

/-- The same with other registers, PC kept. -/
def placedWith (a : Word) (bytes : List Byte) (f : Regs → Regs) : State :=
  let s := placed a bytes
  s.withRegs { f s.regs with pc := a }

/-- The same with bytes of work RAM set. -/
def withRam (cells : List (Word × Byte)) (s : State) : State :=
  cells.foldl (fun t cell => t.poke cell.1 cell.2) s

/-- The registers after one step, none if it does not complete. -/
def regsAfter {α : Type} (s : State) (f : Regs → α) : Option α :=
  match step s with
  | .next t => some (f t.regs)
  | _ => none

/-- The bytes stored at some addresses after one step. -/
def bytesAfter (s : State) (as : List Word) : Option (List (Option Byte)) :=
  match step s with
  | .next t => some (as.map t.peek)
  | _ => none

/-- The kind, access, address and opcode of the fault a step ends with. -/
def faultOf (s : State) : Option (FaultKind × AccessKind × Word × Option Byte) :=
  match step s with
  | .fault (.unmappedAddress r _) => some (r.kind, r.access, r.address, r.opcode)
  | .fault (.illegalOpcode r _) => some (r.kind, r.access, r.address, r.opcode)
  | .fault (.mapperFault r _) => some (r.kind, r.access, r.address, r.opcode)
  | _ => none

/-- A, and N, V, Z, C. -/
def aNVZC (r : Regs) : Byte × Bool × Bool × Bool × Bool := (r.a, r.p.n, r.p.v, r.p.z, r.p.c)

theorem test_lda_zero : regsAfter (placedWith 0x8000#16 [0xA9#8, 0x00#8] fun r => { r with a := 0x55#8 })
    (fun r => (r.a, r.p.z, r.p.n, r.pc)) = some (0x00#8, true, false, 0x8002#16) := by decide

theorem test_ldx_zp : regsAfter (withRam [(0x0010#16, 0x7F#8)] (placed 0x8000#16 [0xA6#8, 0x10#8]))
    (fun r => (r.x, r.p.n, r.p.z)) = some (0x7F#8, false, false) := by decide

theorem test_ldy_imm : regsAfter (placed 0x8000#16 [0xA0#8, 0xFF#8]) (fun r => (r.y, r.p.n)) = some (0xFF#8, true) := by
  decide

/-- W5: the pointer at 0x00FF takes its high byte from 0x0000. -/
theorem test_lda_indX_wrap :
    regsAfter (withRam [(0x00FF#16, 0x00#8), (0x0000#16, 0x03#8), (0x0300#16, 0x5A#8)]
      (placedWith 0x8000#16 [0xA1#8, 0xFE#8] fun r => { r with x := 0x01#8 })) Regs.a = some 0x5A#8 := by decide

/-- The address wraps past 0xFFFF. -/
theorem test_lda_absY_wrap :
    regsAfter (withRam [(0x0010#16, 0x42#8)] (placedWith 0x8000#16 [0xB9#8, 0xF0#8, 0xFF#8] fun r => { r with y := 0x20#8 }))
      Regs.a = some 0x42#8 := by decide

/-- The pointer's second byte comes from 0x0000. -/
theorem test_lda_indY_pointer_wrap :
    regsAfter (withRam [(0x00FF#16, 0xFF#8), (0x0000#16, 0x02#8), (0x0300#16, 0x6B#8)]
      (placedWith 0x8000#16 [0xB1#8, 0xFF#8] fun r => { r with y := 0x01#8 })) Regs.a = some 0x6B#8 := by decide

theorem test_sta_abs :
    bytesAfter (placedWith 0x8000#16 [0x8D#8, 0x00#8, 0x02#8] fun r => { r with a := 0x77#8 }) [0x0200#16, 0x0A00#16] =
      some [some 0x77#8, some 0x77#8] := by decide

theorem test_stx_zpY :
    bytesAfter (placedWith 0x8000#16 [0x96#8, 0x10#8] fun r => { r with x := 0x33#8, y := 0xF5#8 }) [0x0005#16] =
      some [some 0x33#8] := by decide

theorem test_sty_zpX :
    bytesAfter (placedWith 0x8000#16 [0x94#8, 0x20#8] fun r => { r with y := 0x44#8, x := 0xE0#8 }) [0x0000#16] =
      some [some 0x44#8] := by decide

/-- `STA $2000` with A = 0x90 is `PpuRegs.writeRegister(0, 0x90)`. -/
theorem test_sta_ppu :
    (match step (placedWith 0x8000#16 [0x8D#8, 0x00#8, 0x20#8] fun r => { r with a := 0x90#8 }) with
      | .next t => some t.bus.calls
      | _ => none) = some [.ppuWrite 0 0x90#8] := by decide

theorem test_tax_zero : regsAfter (placedWith 0x8000#16 [0xAA#8] fun r => { r with x := 0x01#8 })
    (fun r => (r.x, r.p.z, r.p.n)) = some (0x00#8, true, false) := by decide

theorem test_tay : regsAfter (placedWith 0x8000#16 [0xA8#8] fun r => { r with a := 0x90#8 })
    (fun r => (r.y, r.p.n)) = some (0x90#8, true) := by decide

theorem test_txa : regsAfter (placedWith 0x8000#16 [0x8A#8] fun r => { r with x := 0x01#8 }) Regs.a = some 0x01#8 := by
  decide

theorem test_tya : regsAfter (placedWith 0x8000#16 [0x98#8] fun r => { r with a := 0x01#8 })
    (fun r => (r.a, r.p.z)) = some (0x00#8, true) := by decide

theorem test_tsx : regsAfter (placed 0x8000#16 [0xBA#8]) (fun r => (r.x, r.p.n)) = some (0xFD#8, true) := by decide

theorem test_txs_no_flag : regsAfter (placedWith 0x8000#16 [0x9A#8] fun r => { r with p := { r.p with n := true } })
    (fun r => (r.sp, r.p.z, r.p.n)) = some (0x00#8, false, true) := by decide

/-- PHA at SP = 0x00 wraps. -/
theorem test_pha_wrap :
    regsAfter (placedWith 0x8000#16 [0x48#8] fun r => { r with sp := 0x00#8 }) Regs.sp = some 0xFF#8 ∧
    bytesAfter (placedWith 0x8000#16 [0x48#8] fun r => { r with sp := 0x00#8, a := 0x11#8 }) [0x0100#16] =
      some [some 0x11#8] := by decide

theorem test_pla_wrap :
    regsAfter (withRam [(0x0100#16, 0x80#8)] (placedWith 0x8000#16 [0x68#8] fun r => { r with sp := 0xFF#8 }))
      (fun r => (r.sp, r.a, r.p.n)) = some (0x00#8, 0x80#8, true) := by decide

/-- `PLA` with `pullZeroesSlot` zeroes the vacated byte. -/
theorem test_pla_zeroes_slot :
    bytesAfter { withRam [(0x01FD#16, 0x42#8)] (placedWith 0x8000#16 [0x68#8] fun r => { r with sp := 0xFC#8 }) with
      pullZeroesSlot := true } [0x01FD#16] = some [some 0x00#8] := by decide

theorem test_php_after_power : bytesAfter (placed 0x8000#16 [0x08#8]) [0x01FD#16] = some [some 0x20#8] := by decide

theorem test_php_break :
    bytesAfter (placedWith 0x8000#16 [0x08#8] fun r => { r with p := { r.p with b := true } }) [0x01FD#16] =
      some [some 0x30#8] := by decide

theorem test_plp :
    regsAfter (withRam [(0x01FE#16, 0x10#8)] (placed 0x8000#16 [0x28#8])) Regs.p =
      some { n := false, v := false, b := true, d := false, i := false, z := false, c := false } := by decide

/-- W2. -/
theorem test_adc_overflow : regsAfter (placedWith 0x8000#16 [0x69#8, 0x50#8] fun r => { r with a := 0x50#8 }) aNVZC =
    some (0xA0#8, true, true, false, false) := by decide

theorem test_adc_carry :
    regsAfter (placedWith 0x8000#16 [0x69#8, 0x00#8] fun r => { r with a := 0xFF#8, p := { r.p with c := true, d := true } })
      aNVZC = some (0x00#8, false, false, true, true) := by decide

/-- W2a. -/
theorem test_sbc_borrow : regsAfter (placedWith 0x8000#16 [0xE9#8, 0x50#8] fun r => { r with a := 0xA0#8 }) aNVZC =
    some (0x4F#8, false, true, false, true) := by decide

theorem test_sbc_negative :
    regsAfter (placedWith 0x8000#16 [0xE9#8, 0xF0#8] fun r => { r with a := 0x50#8, p := { r.p with c := true } }) aNVZC =
      some (0x60#8, false, false, false, false) := by decide

theorem test_and : regsAfter (placedWith 0x8000#16 [0x29#8, 0x0F#8] fun r => { r with a := 0xF0#8 })
    (fun r => (r.a, r.p.z, r.p.n)) = some (0x00#8, true, false) := by decide

theorem test_ora : regsAfter (placedWith 0x8000#16 [0x09#8, 0x80#8] fun r => { r with a := 0x01#8 })
    (fun r => (r.a, r.p.z, r.p.n)) = some (0x81#8, false, true) := by decide

theorem test_eor : regsAfter (placedWith 0x8000#16 [0x49#8, 0xFF#8] fun r => { r with a := 0xAA#8 })
    (fun r => (r.a, r.p.z, r.p.n)) = some (0x55#8, false, false) := by decide

theorem test_bit :
    regsAfter (withRam [(0x0200#16, 0x40#8)] (placed 0x8000#16 [0x2C#8, 0x00#8, 0x02#8]))
      (fun r => (r.a, r.p.z, r.p.n, r.p.v)) = some (0x00#8, true, false, true) := by decide

theorem test_cmp : regsAfter (placedWith 0x8000#16 [0xC9#8, 0x01#8] fun r => { r with a := 0x80#8 })
    (fun r => (r.p.c, r.p.z, r.p.n, r.p.v)) = some (true, false, false, false) := by decide

theorem test_cpx : regsAfter (placedWith 0x8000#16 [0xE0#8, 0x05#8] fun r => { r with x := 0x05#8 })
    (fun r => (r.p.c, r.p.z, r.p.n)) = some (true, true, false) := by decide

theorem test_cpy : regsAfter (placed 0x8000#16 [0xC0#8, 0x01#8]) (fun r => (r.p.c, r.p.z, r.p.n)) =
    some (false, false, true) := by decide

theorem test_asl_acc : regsAfter (placedWith 0x8000#16 [0x0A#8] fun r => { r with a := 0x81#8 }) aNVZC =
    some (0x02#8, false, false, false, true) := by decide

theorem test_lsr_zp :
    bytesAfter (withRam [(0x0010#16, 0x03#8)] (placed 0x8000#16 [0x46#8, 0x10#8])) [0x0010#16] = some [some 0x01#8] ∧
    regsAfter (withRam [(0x0010#16, 0x03#8)] (placed 0x8000#16 [0x46#8, 0x10#8])) (fun r => r.p.c) = some true := by decide

theorem test_rol_acc :
    regsAfter (placedWith 0x8000#16 [0x2A#8] fun r => { r with a := 0x40#8, p := { r.p with c := true } }) aNVZC =
      some (0x81#8, true, false, false, false) := by decide

theorem test_ror_acc :
    regsAfter (placedWith 0x8000#16 [0x6A#8] fun r => { r with a := 0x02#8, p := { r.p with c := true } }) aNVZC =
      some (0x81#8, true, false, false, false) := by decide

theorem test_inc_abs :
    bytesAfter (withRam [(0x0200#16, 0xFF#8)] (placed 0x8000#16 [0xEE#8, 0x00#8, 0x02#8])) [0x0200#16] =
      some [some 0x00#8] ∧
    regsAfter (withRam [(0x0200#16, 0xFF#8)] (placed 0x8000#16 [0xEE#8, 0x00#8, 0x02#8])) (fun r => (r.p.z, r.p.c)) =
      some (true, false) := by decide

theorem test_dec_zp :
    bytesAfter (withRam [(0x0010#16, 0x00#8)] (placed 0x8000#16 [0xC6#8, 0x10#8])) [0x0010#16] = some [some 0xFF#8] := by
  decide

theorem test_inx : regsAfter (placedWith 0x8000#16 [0xE8#8] fun r => { r with x := 0xFF#8 })
    (fun r => (r.x, r.p.z)) = some (0x00#8, true) := by decide

theorem test_iny : regsAfter (placedWith 0x8000#16 [0xC8#8] fun r => { r with y := 0x7F#8 })
    (fun r => (r.y, r.p.n)) = some (0x80#8, true) := by decide

theorem test_dex : regsAfter (placed 0x8000#16 [0xCA#8]) (fun r => (r.x, r.p.n)) = some (0xFF#8, true) := by decide

theorem test_dey : regsAfter (placedWith 0x8000#16 [0x88#8] fun r => { r with y := 0x01#8 })
    (fun r => (r.y, r.p.z)) = some (0x00#8, true) := by decide

theorem test_bcc_taken : regsAfter (placed 0x8000#16 [0x90#8, 0x05#8]) Regs.pc = some 0x8007#16 := by decide

theorem test_bcs_not_taken : regsAfter (placed 0x8000#16 [0xB0#8, 0xFE#8]) Regs.pc = some 0x8002#16 := by decide

/-- W4: backward into the 0x7Fxx page. -/
theorem test_beq_backward :
    regsAfter (placedWith 0x8010#16 [0xF0#8, 0x80#8] fun r => { r with p := { r.p with z := true } }) Regs.pc =
      some 0x7F92#16 := by decide

/-- The target wraps past 0x0000. -/
theorem test_beq_wrap :
    regsAfter (placedWith 0x0000#16 [0xF0#8, 0x80#8] fun r => { r with p := { r.p with z := true } }) Regs.pc =
      some 0xFF82#16 := by decide

theorem test_bne_taken : regsAfter (placed 0x8005#16 [0xD0#8, 0xFB#8]) Regs.pc = some 0x8002#16 := by decide

theorem test_bmi_taken :
    regsAfter (placedWith 0x0200#16 [0x30#8, 0x7F#8] fun r => { r with p := { r.p with n := true } }) Regs.pc =
      some 0x0281#16 := by decide

theorem test_bpl_taken : regsAfter (placed 0x8000#16 [0x10#8, 0x10#8]) Regs.pc = some 0x8012#16 := by decide

theorem test_bvc_taken : regsAfter (placed 0x8000#16 [0x50#8, 0x10#8]) Regs.pc = some 0x8012#16 := by decide

theorem test_bvs_not_taken : regsAfter (placed 0x8000#16 [0x70#8, 0x10#8]) Regs.pc = some 0x8002#16 := by decide

theorem test_jmp_abs : regsAfter (placed 0x8000#16 [0x4C#8, 0x34#8, 0x12#8]) Regs.pc = some 0x1234#16 := by decide

/-- W6: the page-boundary bug. -/
theorem test_jmp_ind_bug :
    regsAfter (withRam [(0x02FF#16, 0x34#8), (0x0200#16, 0x12#8), (0x0300#16, 0x56#8)]
      (placed 0x8000#16 [0x6C#8, 0xFF#8, 0x02#8])) Regs.pc = some 0x1234#16 := by decide

theorem test_jsr :
    regsAfter (placed 0x8000#16 [0x20#8, 0x10#8, 0x80#8]) (fun r => (r.pc, r.sp)) = some (0x8010#16, 0xFB#8) ∧
    bytesAfter (placed 0x8000#16 [0x20#8, 0x10#8, 0x80#8]) [0x01FD#16, 0x01FC#16] =
      some [some 0x80#8, some 0x02#8] := by decide

theorem test_rts :
    regsAfter (withRam [(0x01FC#16, 0x02#8), (0x01FD#16, 0x80#8)]
      (placedWith 0x9000#16 [0x60#8] fun r => { r with sp := 0xFB#8 })) (fun r => (r.pc, r.sp)) =
      some (0x8003#16, 0xFD#8) := by decide

theorem test_rti :
    regsAfter (withRam [(0x01FB#16, 0xC3#8), (0x01FC#16, 0x34#8), (0x01FD#16, 0x12#8)]
      (placedWith 0x9000#16 [0x40#8] fun r => { r with sp := 0xFA#8 })) (fun r => (r.pc, r.sp, r.p)) =
      some (0x1234#16, 0xFD#8,
        { n := true, v := true, b := false, d := false, i := false, z := true, c := true }) := by decide

theorem test_brk :
    regsAfter (withRam [(0xFFFE#16, 0x00#8), (0xFFFF#16, 0x90#8)] (placed 0x8000#16 [0x00#8, 0xEA#8]))
      (fun r => (r.pc, r.sp, r.p.b, r.p.i)) = some (0x9000#16, 0xFA#8, true, true) := by decide

theorem test_brk_pushes :
    bytesAfter (placedWith 0x8000#16 [0x00#8, 0xEA#8] fun r => { r with p := { r.p with d := true, c := true } })
      [0x01FD#16, 0x01FC#16, 0x01FB#16] = some [some 0x80#8, some 0x02#8, some 0x39#8] := by decide

/-- CLC, CLD, CLI and CLV clear their flag and no other. -/
theorem test_clear_flags :
    let all : Flags := { n := true, v := true, b := true, d := true, i := true, z := true, c := true }
    let run (op : Byte) := regsAfter (placedWith 0x8000#16 [op] fun r => { r with p := all }) Regs.p
    run 0x18#8 = some { all with c := false } ∧ run 0xD8#8 = some { all with d := false } ∧
      run 0x58#8 = some { all with i := false } ∧ run 0xB8#8 = some { all with v := false } := by decide

/-- SEC, SED and SEI set their flag and no other. -/
theorem test_set_flags :
    let none : Flags := { n := false, v := false, b := false, d := false, i := false, z := false, c := false }
    let run (op : Byte) := regsAfter (placed 0x8000#16 [op]) Regs.p
    run 0x38#8 = some { none with c := true } ∧ run 0xF8#8 = some { none with d := true } ∧
      run 0x78#8 = some { none with i := true } := by decide

theorem test_nop : regsAfter (placed 0x8000#16 [0xEA#8]) Regs.pc = some 0x8001#16 := by decide

theorem test_fault_read : faultOf (placed 0x8000#16 [0xAD#8, 0x00#8, 0x60#8]) =
    some (.unmappedAddress, .read, 0x6000#16, some 0xAD#8) := by decide

theorem test_fault_write : faultOf (placed 0x8000#16 [0x8D#8, 0x18#8, 0x40#8]) =
    some (.unmappedAddress, .write, 0x4018#16, some 0x8D#8) := by decide

theorem test_fault_fetch : faultOf (State.reset.withPc 0x5000#16) =
    some (.unmappedAddress, .fetch, 0x5000#16, none) := by decide

theorem test_fault_opcode : faultOf (placed 0x8000#16 [0x02#8]) =
    some (.illegalOpcode, .fetch, 0x8000#16, some 0x02#8) := by decide

theorem test_fault_increment : faultOf (placed 0x8000#16 [0xEE#8, 0x00#8, 0x70#8]) =
    some (.unmappedAddress, .read, 0x7000#16, some 0xEE#8) := by decide

/-- The first row of the interrupt vectors: an NMI at 0x8005. -/
theorem test_nmi :
    let s := (withRam [(0xFFFA#16, 0x00#8), (0xFFFB#16, 0xA0#8)]
      (placedWith 0x8005#16 [] fun r => { r with p := { r.p with c := true } })).withNmi true
    regsAfter s (fun r => (r.pc, r.sp, r.p.i)) = some (0xA000#16, 0xFA#8, true) ∧
    bytesAfter s [0x01FD#16, 0x01FC#16, 0x01FB#16] = some [some 0x80#8, some 0x05#8, some 0x21#8] := by decide

/-- IRQ with B = 1: the pushed bit 4 is 0 and the stored B stays 1. -/
theorem test_irq_break :
    let s := (withRam [(0xFFFE#16, 0x00#8), (0xFFFF#16, 0x90#8)]
      (placedWith 0x8000#16 [0xEA#8] fun r => { r with p := { r.p with b := true } })).withIrq true
    regsAfter s (fun r => (r.pc, r.p.b)) = some (0x9000#16, true) ∧
    bytesAfter s [0x01FB#16] = some [some 0x20#8] := by decide

/-- IRQ with I = 1 is not taken. -/
theorem test_irq_masked :
    regsAfter ((placedWith 0x8000#16 [0xEA#8] fun r => { r with p := { r.p with i := true } }).withIrq true) Regs.pc =
      some 0x8001#16 := by decide

/-- `power()` with the vector 00 80. -/
theorem test_power :
    let s := (withRam [(0xFFFC#16, 0x00#8), (0xFFFD#16, 0x80#8)] (placed 0x0300#16 [0xA9#8])).power
    s.regs = { State.reset.regs with pc := 0x8000#16 } ∧ s.bus.ram = [] := by decide

theorem test_power_of_reset : State.reset.power = State.reset := by decide

/-- R128: with the reference mapper `power()` returns nothing, also from the faulted state. -/
theorem test_power_returns_nothing :
    let s := State.reset.withFault (some (faultRecord State.reset.regs none ⟨.illegalOpcode, .fetch, 0x0000#16, none⟩))
    hostAct .power s = .next State.reset := rfl

/-- R127: a JMP to itself whose last byte lies in a device register is not recognised; nor is a JMP elsewhere. -/
theorem test_selfLoop_not_recognised :
    runEnd (placed 0x1FFE#16 [0x4C#8, 0xFE#8, 0x1F#8]) = none ∧
    runEnd (placed 0x8000#16 [0x4C#8, 0x01#8, 0x80#8]) = none := by decide

/-- A table word is fetched and run by the very next step: LDA #$00, with its operand byte zero. -/
theorem test_withFetchWord :
    regsAfter (State.reset.withFetchWord 8 0xA9) (fun r => (r.a, r.p.z)) = some (0x00#8, true) ∧
    decodeTableWord 24 0x12_34_8D = some (.staAbs 0x1234#16) := by decide

/-! ### Witnesses: states and operands that meet the hypotheses of each obligation, clause by clause -/

/-- The result is a value. -/
def isOk {α : Type} : Res α → Bool
  | .ok _ _ => true
  | .fault _ _ => false

/-- The outcome is a next state. -/
def completes : Host.Outcome State Fault Refusal → Bool
  | .next _ => true
  | _ => false

/-- The outcome is a fault. -/
def faults : Host.Outcome State Fault Refusal → Bool
  | .fault _ => true
  | _ => false

/-- The state after an outcome that completes. -/
def outcomeRegs : Host.Outcome State Fault Refusal → Option Regs
  | .next t => some t.regs
  | _ => none

theorem witness_DecodeOfEncodeIsIdentity : (Instr.jmpInd 0xFFFF#16).wellFormed = true := by decide

theorem witness_EncodeOfDecodeIsIdentity : decode [0x0A#8, 0x18#8] = .ok (.aslAcc, [0x18#8]) := rfl

theorem witness_UndocumentedOpcodesAreRejected : (0x02#8).toNat ∈ undocumented ∧ (0xFF#8).toNat ∈ undocumented := by
  decide

theorem witness_InstructionsAreTheAllowedForms :
    (Form.read .lda (.imm 0xFF#8)).wellFormed = true ∧ Instr.nop.form = Instr.nop.form := by decide

/-- Both ends of each of the five ranges. -/
theorem witness_BusDecodeHasFiveCases :
    (0x0000#16).toNat < 0x2000 ∧ (0x1FFF#16).toNat < 0x2000 ∧
    0x2000 ≤ (0x2000#16).toNat ∧ (0x3FFF#16).toNat < 0x4000 ∧
    0x4000 ≤ (0x4000#16).toNat ∧ (0x4017#16).toNat < 0x4018 ∧
    0x4018 ≤ (0x4018#16).toNat ∧ (0x7FFF#16).toNat < 0x8000 ∧
    0x8000 ≤ (0x8000#16).toNat ∧ 0x8000 ≤ (0xFFFF#16).toNat := by decide

theorem witness_RamMirrorsShareOneCell :
    State.reset.wf = true ∧ (0x07FF#16).toNat < 0x2000 ∧ (0x1FFF#16).toNat < 0x2000 ∧
    (0x07FF#16).toNat % 0x0800 = (0x1FFF#16).toNat % 0x0800 := by decide

theorem witness_WriteChangesOneCell :
    isOk (writeByte 0x1FFF#16 0x01#8 State.reset) = true ∧ decodeAddress 0x07FE#16 ≠ decodeAddress 0x1FFF#16 ∧
    State.reset.wf = true ∧ (0x1FFF#16).toNat < 0x2000 ∧
    isOk (writeByte 0x2000#16 0x01#8 State.reset) = true ∧ 0x2000 ≤ (0x2000#16).toNat ∧
    isOk (writeByte 0xFFFF#16 0x01#8 State.reset) = true ∧ 0x2000 ≤ (0xFFFF#16).toNat := by decide

theorem witness_DeviceAccessesAreDelivered :
    decodeAddress 0x2000#16 = .ppuRegs 0 ∧ decodeAddress 0x3FFF#16 = .ppuRegs 7 ∧
    decodeAddress 0x4000#16 = .apuRegs 0 ∧ decodeAddress 0x4017#16 = .apuRegs 23 := by decide

theorem witness_UnmappedAccessesFault : inHole 0x4018#16 ∧ inHole 0x7FFF#16 := by
  unfold inHole
  decide

/-- A state whose mapper is not the reference mapper. -/
def withOtherMapper : State := { State.reset with bus := { State.reset.bus with mapper := .other } }

theorem witness_CartridgeAccessesGoToTheMapper :
    0x8000 ≤ (0x8000#16).toNat ∧ 0x8000 ≤ (0xFFFF#16).toNat ∧ State.reset.bus.mapper = .reference ∧
    withOtherMapper.bus.mapper = .other := by decide

theorem witness_PulledWordIsThePushedWord : State.reset.wf = true := by decide

theorem witness_OperandLoadsChangeNothingStored :
    effectiveAddress (.zp 0x10#8) State.reset = .ok 0x0010#16 State.reset ∧
    loadRead (.mem (.zp 0x10#8)) State.reset = .ok 0xFF#8 State.reset := by decide

/-- Both directions: `LDA $8000` completes, `LDA $4018` does not. -/
theorem witness_InstructionsCompleteOffTheHole :
    State.reset.bus.mapper = .reference ∧
    completes (exec (.ldaAbs 0x8000#16) State.reset) = true ∧
    operandAddresses (.ldaAbs 0x8000#16) State.reset = [0x8000#16] ∧
    completes (exec (.ldaAbs 0x4018#16) State.reset) = false ∧
    operandAddresses (.ldaAbs 0x4018#16) State.reset = [0x4018#16] := by decide

/-- A state whose zero page holds a pointer to 0x0300 at 0x0010. -/
def pointing : State := withRam [(0x0010#16, 0x00#8), (0x0011#16, 0x03#8)] State.reset

/-- Whether every form of a row list loads its operand, and some form faults on the first unmapped address. -/
def loadsAndFaults (rows : Byte → Word → List (Instr × List Byte × ReadArg)) : Bool :=
  ((rows 0x10#8 0x0200#16).all fun row => isOk (loadRead row.2.2 (past pointing row.2.1.length))) &&
  (rows 0x10#8 0x4018#16).any fun row => !isOk (loadRead row.2.2 (past pointing row.2.1.length))

theorem witness_LoadsSetRegisterAndNZ :
    loadsAndFaults ldaRows = true ∧ loadsAndFaults ldxRows = true ∧ loadsAndFaults ldyRows = true := by decide

theorem witness_AdcAddsWithCarry : loadsAndFaults adcRows = true := by decide

theorem witness_SbcSubtractsWithBorrow : loadsAndFaults sbcRows = true := by decide

theorem witness_LogicCombinesIntoA :
    loadsAndFaults andRows = true ∧ loadsAndFaults oraRows = true ∧ loadsAndFaults eorRows = true := by decide

theorem witness_BitTestsTheOperand : loadsAndFaults bitRows = true := by decide

theorem witness_ComparesSetFlagsOnly :
    loadsAndFaults cmpRows = true ∧ loadsAndFaults cpxRows = true ∧ loadsAndFaults cpyRows = true := by decide

/-- Whether the write of a form's store is done. -/
def storeIsDone (m : MemArg) (s : State) : Bool :=
  isOk ((effectiveAddress m s).bind fun ea s1 => writeByte ea 0x01#8 s1)

/-- Whether every form of a row list stores, and some form faults on the last unmapped address. -/
def storesAndFaults (rows : Byte → Word → List (Instr × List Byte × MemArg)) : Bool :=
  ((rows 0x10#8 0x0200#16).all fun row => storeIsDone row.2.2 (past pointing row.2.1.length)) &&
  (rows 0x10#8 0x7FFF#16).any fun row => !storeIsDone row.2.2 (past pointing row.2.1.length)

theorem witness_StoresWriteTheirRegister :
    storesAndFaults staRows = true ∧ storesAndFaults stxRows = true ∧ storesAndFaults styRows = true := by decide

/-- Whether a form's operand is read and written back. -/
def modifyIsDone (t : ModifyArg) (s : State) : Bool :=
  match t with
  | .acc => true
  | .mem m => isOk ((effectiveAddress m s).bind fun ea s1 =>
      (readByte .read ea s1).bind fun _ s2 => writeByte ea 0x01#8 s2)

/-- Whether every form of a row list completes, and some form faults on the first unmapped address. -/
def modifiesAndFaults (rows : Byte → Word → List (Instr × List Byte × ModifyArg)) : Bool :=
  ((rows 0x10#8 0x0200#16).all fun row => modifyIsDone row.2.2 (past pointing row.2.1.length)) &&
  (rows 0x10#8 0x4018#16).any fun row => !modifyIsDone row.2.2 (past pointing row.2.1.length)

theorem witness_ShiftsAndRotates :
    modifiesAndFaults aslRows = true ∧ modifiesAndFaults lsrRows = true ∧ modifiesAndFaults rolRows = true ∧
    modifiesAndFaults rorRows = true := by decide

theorem witness_IncAndDecMemory : modifiesAndFaults incRows = true ∧ modifiesAndFaults decRows = true := by decide

theorem witness_DecimalFlagIsInert :
    (Instr.adcImm 0x99#8) ∈ (adcRows 0x99#8 0x0200#16).map Prod.fst ∧
    completes (exec (.adcImm 0x99#8) State.reset) = true := by decide

/-- Both reads answer; the first faults; the first answers (the device register at 0x4017) and the second faults. -/
theorem witness_JumpsWithThePageBug :
    isOk (readByte .read 0x02FF#16 State.reset) = true ∧ isOk (readByte .read 0x0200#16 State.reset) = true ∧
    isOk (readByte .read 0x7FFF#16 State.reset) = false ∧
    isOk (readByte .read 0x4017#16 State.reset) = true ∧ isOk (readByte .read 0x4018#16 State.reset) = false := by decide

theorem witness_BrkGoesThroughTheVector :
    State.reset.bus.mapper = .reference ∧ withOtherMapper.bus.mapper = .other := by decide

theorem witness_RtsUndoesJsr : State.reset.wf = true := by decide

theorem witness_RtiUndoesBrk : State.reset.wf = true ∧ State.reset.bus.mapper = .reference := by decide

/-- A, X, Y and SP each change in some instruction that completes. -/
theorem witness_RegistersChangeOnlyByTheirWriters :
    (outcomeRegs (exec (.ldaImm 0x05#8) State.reset)).map Regs.a = some 0x05#8 ∧
    (outcomeRegs (exec (.ldxImm 0x05#8) State.reset)).map Regs.x = some 0x05#8 ∧
    (outcomeRegs (exec (.ldyImm 0x05#8) State.reset)).map Regs.y = some 0x05#8 ∧
    (outcomeRegs (exec .txs State.reset)).map Regs.sp = some 0x00#8 := by decide

/-- Each of the seven flags changes in some instruction that completes. -/
theorem witness_FlagsChangeOnlyByTheirWriters :
    (outcomeRegs (exec .sec State.reset)).map (fun r => r.p.c) = some true ∧
    (outcomeRegs (exec (.ldaImm 0x00#8) State.reset)).map (fun r => r.p.z) = some true ∧
    (outcomeRegs (exec (.ldaImm 0x80#8) State.reset)).map (fun r => r.p.n) = some true ∧
    (outcomeRegs (exec .sei State.reset)).map (fun r => r.p.i) = some true ∧
    (outcomeRegs (exec .sed State.reset)).map (fun r => r.p.d) = some true ∧
    (outcomeRegs (exec .brk State.reset)).map (fun r => r.p.b) = some true ∧
    (outcomeRegs (exec (.bitZp 0x10#8) State.reset)).map (fun r => r.p.v) = some true := by decide

theorem witness_PcPassesTheInstruction :
    completes (exec (.ldaAbs 0x0200#16) State.reset) = true ∧
    transfersControl (Instr.ldaAbs 0x0200#16).form = false := by decide

/-- An instruction that pulls nothing, and one that pulls with `pullZeroesSlot` off. -/
theorem witness_OtherInstructionsStoreNothing :
    completes (exec .tax State.reset) = true ∧ storesOperand Instr.tax.form = false ∧ pushes Instr.tax.form = 0 ∧
    pulls Instr.tax.form = 0 ∧
    completes (exec .pla State.reset) = true ∧ storesOperand Instr.pla.form = false ∧ pushes Instr.pla.form = 0 ∧
    State.reset.pullZeroesSlot = false := by decide

/-- A store and a read-modify-write. -/
theorem witness_StoresChangeOnlyTheirOperand :
    (Instr.staZp 0x10#8).form = .write .sta (.zp 0x10#8) ∧ (Instr.incZp 0x10#8).form = .modify .inc (.mem (.zp 0x10#8)) ∧
    effectiveAddress (.zp 0x10#8) (past State.reset 2) = .ok 0x0010#16 (past State.reset 2) ∧
    (Instr.staZp 0x10#8).length = 2 ∧ (Instr.incZp 0x10#8).length = 2 ∧
    completes (exec (.staZp 0x10#8) State.reset) = true ∧ completes (exec (.incZp 0x10#8) State.reset) = true ∧
    decodeAddress 0x0011#16 ≠ decodeAddress 0x0010#16 := by decide

/-- BRK pushes three bytes at SP = 0x01, over the wrap; 0x0102 and 0x01FE lie outside. RTI pulls three at SP = 0xFE; 0x01FE
and 0x0102 lie outside. -/
theorem witness_StackInstructionsChangeOnlyTheirSlots :
    let low := placedWith 0x8000#16 [] fun r => { r with sp := 0x01#8 }
    let high := placedWith 0x8000#16 [] fun r => { r with sp := 0xFE#8 }
    completes (exec .brk low) = true ∧ pushes Instr.brk.form = 3 ∧
    (∀ k, k < 3 → decodeAddress 0x0102#16 ≠
      decodeAddress (BitVec.ofNat 16 (0x0100 + (low.regs.sp - BitVec.ofNat 8 k).toNat))) ∧
    (∀ k, k < 3 → decodeAddress 0x01FE#16 ≠
      decodeAddress (BitVec.ofNat 16 (0x0100 + (low.regs.sp - BitVec.ofNat 8 k).toNat))) ∧
    completes (exec .rti high) = true ∧ pulls Instr.rti.form = 3 ∧
    (∀ k, k < 3 → decodeAddress 0x01FE#16 ≠
      decodeAddress (BitVec.ofNat 16 (0x0100 + (high.regs.sp + 1#8 + BitVec.ofNat 8 k).toNat))) ∧
    (∀ k, k < 3 → decodeAddress 0x0102#16 ≠
      decodeAddress (BitVec.ofNat 16 (0x0100 + (high.regs.sp + 1#8 + BitVec.ofNat 8 k).toNat))) := by decide

theorem witness_InstructionsLeaveTheRestOfTheState : completes (exec .nop State.reset) = true := by decide

/-- The bytes of one instruction that completes and of one that faults. -/
theorem witness_StepRunsTheDecodedInstruction :
    let s := placed 0x0300#16 [0xA9#8, 0x05#8]
    let u := placed 0x0200#16 [0xAD#8, 0x18#8, 0x40#8]
    runsInstruction s ∧ runsInstruction u ∧
    fetchSequence 2 s.regs.pc s = .ok [0xA9#8, 0x05#8] s ∧ decode [0xA9#8, 0x05#8] = .ok (.ldaImm 0x05#8, []) ∧
    completes (exec (.ldaImm 0x05#8) s) = true ∧
    fetchSequence 3 u.regs.pc u = .ok [0xAD#8, 0x18#8, 0x40#8] u ∧
    decode [0xAD#8, 0x18#8, 0x40#8] = .ok (.ldaAbs 0x4018#16, []) ∧ faults (exec (.ldaAbs 0x4018#16) u) = true := by
  intro s u
  refine ⟨by unfold runsInstruction; decide, by unfold runsInstruction; decide, rfl, rfl, by decide, rfl, rfl, by decide⟩

/-- A step that completes and a step that faults, from well-formed states. -/
theorem witness_StepKeepsMemoryCanonical :
    (placed 0x8000#16 [0x48#8]).wf = true ∧ completes (step (placed 0x8000#16 [0x48#8])) = true ∧
    State.reset.wf = true ∧ faults (step State.reset) = true := by decide

theorem witness_ResetStateIsAsPowerLeavesIt : (0x0000#16).toNat < 0x2000 ∧ (0x1FFF#16).toNat < 0x2000 := by decide

theorem witness_StepKeepsTheProgramBank :
    completes (step (placed 0x8000#16 [0x8D#8, 0x00#8, 0x80#8])) = true ∧ faults (step State.reset) = true := by decide

theorem witness_FaultsArePreciseAndSticky : State.reset.fault = none ∧ faults (step State.reset) = true := by decide

theorem witness_OnlyBrkWritesBeforeAFault :
    faults (exec (.incAbs 0x7FFF#16) State.reset) = true ∧ Instr.incAbs 0x7FFF#16 ≠ .brk := by decide

/-- Fetches at both ends of the unmapped range, an undocumented opcode, and instructions of one, two and three bytes: the
last byte of the three-byte one would be fetched at 0x2000. -/
theorem witness_FetchFaults :
    let low := State.reset.withPc 0x4018#16
    let high := State.reset.withPc 0x7FFF#16
    let bad := placed 0x8000#16 [0x02#8]
    let edge := placed 0x1FFE#16 [0xAD#8, 0x00#8]
    runsInstruction low ∧ inHole low.regs.pc ∧ runsInstruction high ∧ inHole high.regs.pc ∧
    runsInstruction bad ∧ bad.peek bad.regs.pc = some 0x02#8 ∧ (0x02#8).toNat ∈ undocumented ∧
    runsInstruction edge ∧ edge.peek edge.regs.pc = some 0xAD#8 ∧ (0xAD#8).toNat ∉ undocumented ∧
    (encode (.ldaAbs 0x1234#16)).head? = some 0xAD#8 ∧ (encode (.ldaAbs 0x1234#16)).length = 3 ∧
    (encode (.ldaZp 0x10#8)).head? = some 0xA5#8 ∧ (encode (.ldaZp 0x10#8)).length = 2 ∧
    (encode .nop).head? = some 0xEA#8 ∧ (encode .nop).length = 1 := by
  unfold runsInstruction inHole
  decide

/-- An NMI pending with I set, and an IRQ on the line with I clear, with the reference mapper and with another. -/
theorem witness_InterruptEntryAtTheBoundary :
    ∀ s ∈ [State.reset, withOtherMapper],
      let nmi := (s.withNmi true).withFlags { s.regs.p with i := true }
      let irq := s.withIrq true
      (nmi.fault = none ∧ nmi.nmiPending = true) ∧
      (irq.fault = none ∧ irq.nmiPending = false ∧ irq.irqLine = true ∧ irq.regs.p.i = false) ∧
      (s.bus.mapper = .reference ∨ s.bus.mapper = .other) := by decide

theorem witness_RtiUndoesInterruptEntry :
    let nmi := State.reset.withNmi true
    let irq := State.reset.withIrq true
    nmi.wf = true ∧ nmi.fault = none ∧ nmi.bus.mapper = .reference ∧ nmi.nmiPending = true ∧
    irq.wf = true ∧ irq.fault = none ∧ irq.bus.mapper = .reference ∧ irq.irqLine = true ∧ irq.regs.p.i = false := by
  decide

/-- From a faulted state, and with another mapper. -/
theorem witness_PowerResetsTheCore :
    let faulted := State.reset.withFault (some (faultRecord State.reset.regs none ⟨.illegalOpcode, .fetch, 0x0000#16, none⟩))
    faulted.bus.mapper = .reference ∧ withOtherMapper.bus.mapper = .other := by decide

/-- A fault latched; a self-loop in RAM and one in the reference mapper's bank, at which the step runs the JMP, with their
bytes stored; another mapper with PC at both ends of the clause's range. -/
theorem witness_SelfLoopStaysWhereItIs :
    (State.reset.withFault (some (faultRecord State.reset.regs none ⟨.illegalOpcode, .fetch, 0x0000#16, none⟩))).fault ≠ none ∧
    (∀ s ∈ [placed 0x1FFD#16 [0x4C#8, 0xFD#8, 0x1F#8], placed 0xFFFD#16 [0x4C#8, 0xFD#8, 0xFF#8]],
      s.peek s.regs.pc = some 0x4C#8 ∧ s.peek (s.regs.pc + 1#16) = some (lowByte s.regs.pc) ∧
      s.peek (s.regs.pc + 2#16) = some (highByte s.regs.pc) ∧ runsInstruction s ∧ runEnd s = some .selfLoop ∧
      ∀ k : Nat, k < 3 → s.peek (s.regs.pc + BitVec.ofNat 16 k) ≠ none) ∧
    ∀ s ∈ [withOtherMapper.withPc 0x8000#16, withOtherMapper.withPc 0xFFFD#16],
      s.fault = none ∧ s.bus.mapper = .other ∧ 0x8000 ≤ s.regs.pc.toNat ∧ s.regs.pc.toNat ≤ 0xFFFD := by
  unfold runsInstruction
  decide

end Sys2Proof.Tests
end

section
/-! PROOF. The statements about the state (spec/10_state.md): what every instruction leaves of the registers, the flags
and the rest of the state, the canonical form of the memories, and the reset state. -/

namespace Sys2Proof.Machine

open Sys2Proof.Claims

/-! ### The registers after an instruction that completes -/

/-- Every register file that a form can leave behind when it starts at `r`, PC already past its bytes. -/
inductive RegsAfter : Form → Regs → Regs → Prop where
  | read (op : ReadOp) (src : ReadArg) (v : Byte) (r : Regs) : RegsAfter (.read op src) r (readEffect op v r)
  | write (op : WriteOp) (m : MemArg) (r : Regs) : RegsAfter (.write op m) r r
  | modifyAcc (op : ModifyOp) (r : Regs) :
      RegsAfter (.modify op .acc) r { r with a := (modifyEffect op r.a r.p).1, p := (modifyEffect op r.a r.p).2 }
  | modifyMem (op : ModifyOp) (m : MemArg) (v : Byte) (r : Regs) :
      RegsAfter (.modify op (.mem m)) r { r with p := (modifyEffect op v r.p).2 }
  | branch (op : BranchOp) (d : Byte) (pc : Word) (r : Regs) : RegsAfter (.branch op d) r { r with pc := pc }
  | jump (j : JumpArg) (pc : Word) (r : Regs) : RegsAfter (.jump j) r { r with pc := pc }
  | call (w : Word) (r : Regs) : RegsAfter (.call w) r { r with sp := r.sp - 2#8, pc := w }
  | register (op : ImpliedOp) (f : Regs → Regs) (h : registerEffect op = some f) (r : Regs) :
      RegsAfter (.implied op) r (f r)
  | pha (r : Regs) : RegsAfter (.implied .pha) r { r with sp := r.sp - 1#8 }
  | php (r : Regs) : RegsAfter (.implied .php) r { r with sp := r.sp - 1#8 }
  | pla (v : Byte) (r : Regs) : RegsAfter (.implied .pla) r (loadA v { r with sp := r.sp + 1#8 })
  | plp (b : Byte) (r : Regs) :
      RegsAfter (.implied .plp) r { r with sp := r.sp + 1#8, p := Flags.deserialize b }
  | rts (pc : Word) (r : Regs) : RegsAfter (.implied .rts) r { r with sp := r.sp + 2#8, pc := pc }
  | rti (b : Byte) (pc : Word) (r : Regs) :
      RegsAfter (.implied .rti) r { r with sp := r.sp + 3#8, p := Flags.deserialize b, pc := pc }
  | brk (pc : Word) (r : Regs) :
      RegsAfter (.implied .brk) r { r with sp := r.sp - 3#8, p := { r.p with b := true, i := true }, pc := pc }

/-- The registers after taking an interrupt: three bytes pushed, I set, PC from the vector. -/
theorem takeInterrupt_regs {v ret : Word} {status : Byte} {s t : State}
    (h : takeInterrupt v ret status s = .ok () t) :
    ∃ pc, t.regs = { s.regs with sp := s.regs.sp - 3#8, p := { s.regs.p with i := true }, pc := pc } := by
  rw [takeInterrupt_eq] at h
  have k := readVector_keeps v ((pushedThree s ret status).withFlags { s.regs.p with i := true })
  cases hv : readVector v ((pushedThree s ret status).withFlags { s.regs.p with i := true }) with
  | fault e u => rw [hv] at h; cases h
  | ok pc u =>
    rw [hv] at h k
    obtain ⟨hregs, -⟩ := k
    cases h
    exact ⟨pc, by rw [State.withPc_regs, ← Res.state_ok pc u, hregs]; rfl⟩

/-- The registers after `pull16`. -/
theorem pulled_pulled_regs (s : State) : (pulled (pulled s)).regs = { s.regs with sp := s.regs.sp + 2#8 } := by
  have h : s.regs.sp + 1#8 + 1#8 = s.regs.sp + 2#8 := by bv_omega
  simp only [pulled_regs, h]

/-- The registers after returning from an interrupt: three bytes pulled, every flag from the first. -/
theorem returnFromInterrupt_regs {s t : State} (h : returnFromInterrupt s = .ok () t) :
    ∃ b pc, t.regs = { s.regs with sp := s.regs.sp + 3#8, p := Flags.deserialize b, pc := pc } := by
  rw [returnFromInterrupt_eq] at h
  cases h
  have hsp : s.regs.sp + 1#8 + 2#8 = s.regs.sp + 3#8 := by bv_omega
  exact ⟨_, _, by rw [State.withPc_regs, pulled_pulled_regs, State.withFlags_regs, pulled_regs, hsp]⟩

/-- An Implied instruction with a register effect does that effect and nothing else. -/
theorem runImplied_of_registerEffect {op : ImpliedOp} {f : Regs → Regs} (h : registerEffect op = some f) (s : State) :
    runImplied op s = .ok () (s.withRegs (f s.regs)) := by
  cases op <;> cases h <;> rfl

theorem runImplied_regsAfter {op : ImpliedOp} {s t : State} (h : runImplied op s = .ok () t) :
    RegsAfter (.implied op) s.regs t.regs := by
  cases hf : registerEffect op with
  | some f =>
    rw [runImplied_of_registerEffect hf] at h
    cases h
    exact .register op f hf s.regs
  | none =>
    cases op with
    | pha => rw [runImplied, push8_eq] at h; cases h; exact .pha s.regs
    | php => rw [runImplied, push8_eq] at h; cases h; exact .php s.regs
    | pla =>
      rw [runImplied, pull8_eq] at h
      cases h
      rw [State.withRegs_regs, pulled_regs]
      exact .pla _ s.regs
    | plp =>
      rw [runImplied, pull8_eq] at h
      cases h
      rw [State.withFlags_regs, pulled_regs]
      exact .plp _ s.regs
    | rts =>
      rw [runImplied, pull16_eq] at h
      cases h
      rw [State.withPc_regs, pulled_pulled_regs]
      exact .rts _ s.regs
    | rti =>
      obtain ⟨b, pc, hregs⟩ := returnFromInterrupt_regs h
      rw [hregs]
      exact .rti b pc s.regs
    | brk =>
      obtain ⟨pc, hregs⟩ := takeInterrupt_regs h
      rw [hregs]
      exact .brk pc s.regs
    | _ => cases hf

theorem runForm_regsAfter {f : Form} {s t : State} (h : runForm f s = .ok () t) : RegsAfter f s.regs t.regs := by
  cases f with
  | read op src =>
    obtain ⟨v, u, -, rfl, -⟩ := runForm_read h
    exact .read op src v s.regs
  | write op m =>
    obtain ⟨ea, -, -, hregs⟩ := runForm_write h
    rw [hregs]
    exact .write op m s.regs
  | modify op tgt =>
    cases tgt with
    | acc => cases h; exact .modifyAcc op s.regs
    | mem m =>
      obtain ⟨ea, v, u, x, -, -, -, -, -, hregs, rfl⟩ := runModify_mem h
      rw [State.withFlags_regs, hregs]
      exact .modifyMem op m v s.regs
  | branch op d =>
    cases h
    split
    · exact .branch op d _ s.regs
    · exact .branch op d s.regs.pc s.regs
  | jump j =>
    obtain ⟨pc, u, -, -, hregs, -⟩ := runForm_jump h
    rw [hregs]
    exact .jump j pc s.regs
  | call w => rw [runForm, push16_eq] at h; cases h; exact .call w s.regs
  | implied op => exact runImplied_regsAfter h

/-- The registers after an instruction that completes: those of its form, from PC past its bytes. -/
theorem exec_regsAfter {i : Instr} {s t : State} (h : exec i s = .next t) :
    RegsAfter i.form (s.advance i.length).regs t.regs := by
  obtain ⟨u, hu, hrun, -⟩ | ⟨e, u, hu, -, -⟩ := exec_cases i s
  · rw [hu] at h; cases h; exact runForm_regsAfter hrun
  · rw [hu] at h; cases h

/-! ### Writers of registers and flags -/

/-- A, X, Y and SP differ in `q` from `r` only where the form is listed as their writer. -/
def OnlyListedRegsDiffer (f : Form) (r q : Regs) : Prop :=
  (q.a ≠ r.a → writesA f = true) ∧ (q.x ≠ r.x → writesX f = true) ∧ (q.y ≠ r.y → writesY f = true) ∧
  (q.sp ≠ r.sp → writesSP f = true)

/-- Flags differ in `q` from `p` only where the form is listed as their writer. -/
def OnlyListedFlagsDiffer (f : Form) (p q : Flags) : Prop :=
  (q.c ≠ p.c → writesC f = true) ∧ (q.z ≠ p.z → writesZ f = true) ∧ (q.n ≠ p.n → writesZ f = true) ∧
  (q.i ≠ p.i → writesI f = true) ∧ (q.d ≠ p.d → writesD f = true) ∧ (q.b ≠ p.b → writesB f = true) ∧
  (q.v ≠ p.v → writesV f = true)

/-- Every instruction has a form that R154 allows. -/
theorem form_wellFormed (i : Instr) : i.form.wellFormed = true := by
  cases i <;> rfl

theorem readEffect_onlyListedRegsDiffer (op : ReadOp) (src : ReadArg) (v : Byte) (r : Regs) :
    OnlyListedRegsDiffer (.read op src) r (readEffect op v r) := by
  cases op <;>
    simp [OnlyListedRegsDiffer, writesA, writesX, writesY, readEffect, loadA, loadX, loadY, addToA, subtractFromA,
      andIntoA, orIntoA, xorIntoA, testBits, compareA, compareX, compareY]

theorem registerEffect_onlyListedRegsDiffer {op : ImpliedOp} {f : Regs → Regs} (h : registerEffect op = some f)
    (r : Regs) : OnlyListedRegsDiffer (.implied op) r (f r) := by
  cases op <;> cases h <;> simp [OnlyListedRegsDiffer, writesA, writesX, writesY, writesSP]

/-- The shifts and rotates are the read-modify-write instructions with an accumulator form. -/
theorem writesA_of_wellFormed_acc {op : ModifyOp} (h : (Form.modify op .acc).wellFormed = true) :
    writesA (.modify op .acc) = true := by
  cases op with
  | inc => cases h
  | dec => cases h
  | _ => rfl

theorem RegsAfter.onlyListedRegsDiffer {f : Form} {r q : Regs} (h : RegsAfter f r q) (hf : f.wellFormed = true) :
    OnlyListedRegsDiffer f r q := by
  cases h with
  | read op src v => exact readEffect_onlyListedRegsDiffer op src v r
  | modifyAcc op => simp [OnlyListedRegsDiffer, writesA_of_wellFormed_acc hf]
  | register op g hg => exact registerEffect_onlyListedRegsDiffer hg r
  | _ => simp [OnlyListedRegsDiffer, writesA, writesSP, loadA]

theorem readEffect_onlyListedFlagsDiffer (op : ReadOp) (src : ReadArg) (v : Byte) (r : Regs) :
    OnlyListedFlagsDiffer (.read op src) r.p (readEffect op v r).p := by
  cases op <;>
    simp [OnlyListedFlagsDiffer, writesC, writesZ, writesV, readEffect, loadA, loadX, loadY, addToA, subtractFromA,
      andIntoA, orIntoA, xorIntoA, testBits, compareA, compareX, compareY, Flags.setNZ, addWithCarry, compareFlags,
      bitFlags]

theorem modifyEffect_onlyListedFlagsDiffer (op : ModifyOp) (tgt : ModifyArg) (v : Byte) (p : Flags) :
    OnlyListedFlagsDiffer (.modify op tgt) p (modifyEffect op v p).2 := by
  cases op <;>
    simp [OnlyListedFlagsDiffer, writesC, writesZ, modifyEffect, shiftLeft, shiftRight, rotateLeft, rotateRight,
      increment, decrement, Flags.setNZ]

theorem registerEffect_onlyListedFlagsDiffer {op : ImpliedOp} {f : Regs → Regs} (h : registerEffect op = some f)
    (r : Regs) : OnlyListedFlagsDiffer (.implied op) r.p (f r).p := by
  cases op <;> cases h <;>
    simp [OnlyListedFlagsDiffer, writesC, writesZ, writesI, writesD, writesV, Flags.setNZ]

theorem RegsAfter.onlyListedFlagsDiffer {f : Form} {r q : Regs} (h : RegsAfter f r q) :
    OnlyListedFlagsDiffer f r.p q.p := by
  cases h with
  | read op src v => exact readEffect_onlyListedFlagsDiffer op src v r
  | modifyAcc op => exact modifyEffect_onlyListedFlagsDiffer op .acc r.a r.p
  | modifyMem op m v => exact modifyEffect_onlyListedFlagsDiffer op (.mem m) v r.p
  | register op g hg => exact registerEffect_onlyListedFlagsDiffer hg r
  | _ => simp [OnlyListedFlagsDiffer, writesC, writesZ, writesI, writesD, writesB, writesV, loadA, Flags.setNZ]

/-! ### All that a step can do outside the registers -/

/-- A fault report names its record and its faulted state. -/
theorem Fault.report_inj {r r' : FaultRecord} {t t' : State} (h : Fault.report r t = Fault.report r' t') :
    r = r' ∧ t = t' := by
  unfold Fault.report at h
  split at h <;> split at h <;> cases h <;> exact ⟨rfl, rfl⟩

@[simp] theorem faultedState_bus (s : State) (op : Option Byte) (e : Raised) (u : State) :
    (faultedState s op e u).bus = u.bus := rfl

/-- What a fault ends with depends on the start only through its registers. -/
theorem endWithFault_congr {s s' : State} (h : s'.regs = s.regs) (op : Option Byte) (e : Raised) (u : State) :
    endWithFault s' op e u = endWithFault s op e u := by
  simp only [endWithFault, faultedState, h]

/-- The outcome is that of a step from `s` which, but for the NMI latch it may clear and the record it leaves, has
stayed within `s`: a next state with its diagnostic record, or a fault of that start. -/
def OutcomeWithin (s : State) (o : Host.Outcome State Fault Refusal) : Prop :=
  ∃ nmi u, Within (s.withNmi nmi) u ∧
    ((∃ d, o = .next (u.withDiag d)) ∨ ∃ op e, o = endWithFault s op e u)

theorem acknowledge_eq_withNmi (k : InterruptKind) (s : State) : ∃ nmi, acknowledge k s = s.withNmi nmi := by
  cases k with
  | nmi => exact ⟨false, rfl⟩
  | irq => exact ⟨s.nmiPending, rfl⟩

theorem interruptEntry_outcomeWithin (k : InterruptKind) (s : State) : OutcomeWithin s (interruptEntry k s) := by
  obtain ⟨nmi, hack⟩ := acknowledge_eq_withNmi k s
  have hw := takeInterrupt_within k.vector s.regs.pc (s.regs.p.serialize &&& 0xEF#8) (s.withNmi nmi)
  unfold interruptEntry
  rw [hack]
  cases hr : takeInterrupt k.vector s.regs.pc (s.regs.p.serialize &&& 0xEF#8) (s.withNmi nmi) with
  | ok v u => rw [hr] at hw; exact ⟨nmi, u, hw, .inl ⟨_, rfl⟩⟩
  | fault e u => rw [hr] at hw; exact ⟨nmi, u, hw, .inr ⟨none, e, rfl⟩⟩

theorem runInstruction_outcomeWithin (s : State) : OutcomeWithin s (runInstruction s) := by
  obtain ⟨op, e, u, hrun, hw⟩ | ⟨op, sh, s1, i, s2, -, -, -, hrun, hw, hregs, -⟩ := runInstruction_cases s
  · exact ⟨s.nmiPending, u, hw, .inr ⟨op, e, hrun⟩⟩
  · obtain ⟨u, hexec, -, hwu⟩ | ⟨e, u, hexec, -, hwu⟩ := exec_cases i s2
    · exact ⟨s.nmiPending, u, hw.trans hwu, .inl ⟨_, by rw [hrun, hexec]; rfl⟩⟩
    · refine ⟨s.nmiPending, u, hw.trans hwu, .inr ⟨some i.opcode, e, ?_⟩⟩
      rw [hrun, hexec, ← endWithFault_congr hregs]
      rfl

/-- All that a step with an empty fault latch can answer, outside the registers. -/
theorem step_outcomeWithin {s : State} (h : s.fault = none) : OutcomeWithin s (step s) := by
  obtain ⟨k, -, hstep⟩ | ⟨-, hstep⟩ := step_cases h
  · rw [hstep]; exact interruptEntry_outcomeWithin k s
  · rw [hstep]; exact runInstruction_outcomeWithin s

/-! ### The canonical form of the memories -/

/-- The canonical form is a property of the bus. -/
theorem State.wf_congr {s t : State} (h : t.bus = s.bus) : t.wf = s.wf := by
  simp only [State.wf, h]

/-- A next state is in canonical form when the outcome is of a step from a state that is. -/
theorem OutcomeWithin.wf_next {s t : State} {o : Host.Outcome State Fault Refusal} (h : OutcomeWithin s o)
    (hs : s.wf = true) (ho : o = .next t) : t.wf = true := by
  obtain ⟨nmi, u, hw, ⟨d, hd⟩ | ⟨op, e, he⟩⟩ := h
  · rw [hd] at ho; cases ho; exact hw.wf hs
  · rw [he] at ho; cases ho

/-- A faulted state is in canonical form when the outcome is of a step from a state that is. -/
theorem OutcomeWithin.wf_fault {s t : State} {r : FaultRecord} {o : Host.Outcome State Fault Refusal}
    (h : OutcomeWithin s o) (hs : s.wf = true) (ho : o = .fault (Fault.report r t)) : t.wf = true := by
  obtain ⟨nmi, u, hw, ⟨d, hd⟩ | ⟨op, e, he⟩⟩ := h
  · rw [hd] at ho; cases ho
  · rw [he, endWithFault] at ho
    obtain ⟨-, rfl⟩ := Fault.report_inj (Host.Outcome.fault.inj ho)
    rw [State.wf_congr (faultedState_bus s op e u)]
    exact hw.wf hs

/-! ### The reset state -/

/-- Work RAM with nothing listed reads 0xFF at every address, mirrors included (R341). -/
theorem peek_of_empty_ram {s : State} (hs : s.bus.ram = []) {a : Word} (ha : a.toNat < 0x2000) :
    s.peek a = some 0xFF#8 := by
  simp only [State.peek, decodeAddress_workRam ha, hs]
  rfl

/-- `power()` with the reference mapper: the core cleared, and PC the word that the bank holds at the reset vector. -/
theorem power_reference {s : State} (h : s.bus.mapper = .reference) :
    s.power = (clearCore s).withPc (joinBytes (Memory.read s.bus.prg 0x7FFD) (Memory.read s.bus.prg 0x7FFC)) := by
  have hv := readVector_reference (v := resetVector) (s := clearCore s) (by decide) (by decide) h
  simp only [State.power, hv]
  rfl

end Sys2Proof.Machine

namespace Sys2Proof.Claims

open Sys2Proof.Machine

/-! ### The obligations -/

/-- Settles O43, from the list of register files that an instruction can leave behind. -/
theorem registersChangeOnlyByTheirWriters : Obligations.RegistersChangeOnlyByTheirWriters := by
  intro i s t h
  exact (exec_regsAfter h).onlyListedRegsDiffer (form_wellFormed i)

/-- Settles O44, from the same list. -/
theorem flagsChangeOnlyByTheirWriters : Obligations.FlagsChangeOnlyByTheirWriters := by
  intro i s t h
  exact (exec_regsAfter h).onlyListedFlagsDiffer

/-- Settles O51: a step stays within its start, and a faulted state repeats itself. -/
theorem stepKeepsMemoryCanonical : Obligations.StepKeepsMemoryCanonical := by
  intro s hs
  cases hf : s.fault with
  | none =>
    have hw := step_outcomeWithin hf
    exact ⟨fun t ht => hw.wf_next hs ht, fun f r t ht hr => hw.wf_fault hs (hr ▸ ht)⟩
  | some r =>
    rw [step_of_fault hf]
    refine ⟨fun t ht => (nomatch ht), fun f r' t ht hr => ?_⟩
    obtain ⟨-, rfl⟩ := Fault.report_inj ((Host.Outcome.fault.inj ht).trans hr)
    exact hs

/-- Settles O49: an instruction that completes stays within its start. -/
theorem instructionsLeaveTheRestOfTheState : Obligations.InstructionsLeaveTheRestOfTheState := by
  intro i s t h
  have hw := exec_next_within h
  obtain ⟨new, hnew⟩ := hw.calls
  exact ⟨hw.prg, hw.mapper, hw.pullZeroesSlot, hw.irqLine, hw.nmiPending, hw.fault, hw.diag, new, hnew.symm⟩

/-- Settles O52: the fields by evaluation, work RAM at every address, and `power()` with the reference mapper. -/
theorem resetStateIsAsPowerLeavesIt : Obligations.ResetStateIsAsPowerLeavesIt := by
  have hram : ∀ a : Word, a.toNat < 0x2000 → State.reset.peek a = some 0xFF#8 :=
    fun _ ha => peek_of_empty_ram rfl ha
  have hpower : State.reset.power = State.reset := by
    rw [power_reference rfl]
    decide
  exact ⟨rfl, rfl, rfl, rfl, rfl, by decide, hram, rfl, rfl, hpower⟩

end Sys2Proof.Claims
end

section
/-! PROOF. The statements about memory (spec/20_memory.md): the bus decode and one access of each target, the stack unit,
what an instruction that stores to no operand leaves of the stored bytes, and what no step changes. -/

namespace Sys2Proof.Machine

open Sys2Proof.Claims

/-! ### The bus decode -/

theorem decodeAddress_ppuRegs {a : Word} (h1 : 0x2000 ≤ a.toNat) (h2 : a.toNat < 0x4000) :
    decodeAddress a = .ppuRegs (BitVec.ofNat 3 ((a.toNat - 0x2000) % 8)) := by
  have e1 : ¬ a.toNat < 0x2000 := by omega
  simp [decodeAddress, e1, h2]

theorem decodeAddress_apuRegs {a : Word} (h1 : 0x4000 ≤ a.toNat) (h2 : a.toNat < 0x4018) :
    decodeAddress a = .apuRegs (Fin.ofNat 24 (a.toNat - 0x4000)) := by
  have e1 : ¬ a.toNat < 0x2000 := by omega
  have e2 : ¬ a.toNat < 0x4000 := by omega
  rw [decodeAddress, if_neg e1, if_neg e2, if_pos h2]

/-- Only an address below 0x2000 decodes to work RAM. -/
theorem decodeAddress_eq_workRam {a : Word} {i : BitVec 11} (h : decodeAddress a = .workRam i) : a.toNat < 0x2000 := by
  unfold decodeAddress at h
  split at h
  · assumption
  · split at h
    · cases h
    · split at h
      · cases h
      · split at h <;> cases h

theorem stackAddress_eq_ofNat (sp : Byte) : stackAddress sp = BitVec.ofNat 16 (0x0100 + sp.toNat) := by
  rw [stackAddress, BitVec.ofNat_add, BitVec.ofNat_toNat]

/-- A stack slot is the work RAM cell of its index. -/
theorem decodeAddress_stackSlot (sp : Byte) :
    decodeAddress (BitVec.ofNat 16 (0x0100 + sp.toNat)) = .workRam (BitVec.ofNat 11 (0x0100 + sp.toNat)) := by
  rw [← stackAddress_eq_ofNat, decodeAddress_stack]

/-! ### One access of each target -/

theorem readByte_workRam (k : AccessKind) {a : Word} {i : BitVec 11} (h : decodeAddress a = .workRam i) (s : State) :
    readByte k a s = .ok (Memory.read s.bus.ram i.toNat) s := by
  simp only [readByte, h]

theorem writeByte_workRam {a : Word} {i : BitVec 11} (h : decodeAddress a = .workRam i) (v : Byte) (s : State) :
    writeByte a v s = .ok () (s.withBus (s.bus.withRam (Memory.write s.bus.ram i.toNat v))) := by
  simp only [writeByte, h]

/-- The reference mapper answers from its program bank and ignores a write (R60). -/
theorem readByte_reference (k : AccessKind) {a : Word} {s : State} (h : 0x8000 ≤ a.toNat)
    (hm : s.bus.mapper = .reference) : readByte k a s = .ok (Memory.read s.bus.prg (prgIndex a)) s := by
  simp only [readByte, decodeAddress_cartridge h, mapperRead, hm]

theorem writeByte_reference {a : Word} (v : Byte) {s : State} (h : 0x8000 ≤ a.toNat)
    (hm : s.bus.mapper = .reference) : writeByte a v s = .ok () s := by
  simp only [writeByte, decodeAddress_cartridge h, mapperWrite, hm]

/-- A cartridge write that another mapper takes is delivered (R59). -/
theorem writeByte_other_ok {a : Word} {v : Byte} {s : State} {x : Unit} (h : 0x8000 ≤ a.toNat)
    (hm : s.bus.mapper = .other) (hd : Config.otherMapperWrite s.bus.draws a v = .ok x) :
    writeByte a v s = .ok () (s.withBus (s.bus.draw.log (.mapperWrite a v))) := by
  simp only [writeByte, decodeAddress_cartridge h, mapperWrite, hm, hd]

/-- A cartridge write that another mapper fails raises MapperFault (R302). -/
theorem writeByte_other_error {a : Word} {v : Byte} {s : State} {d : Nat} (h : 0x8000 ≤ a.toNat)
    (hm : s.bus.mapper = .other) (hd : Config.otherMapperWrite s.bus.draws a v = .error d) :
    writeByte a v s = .fault ⟨.mapperFault, .write, a, some d⟩ (s.withBus s.bus.draw) := by
  simp only [writeByte, decodeAddress_cartridge h, mapperWrite, hm, hd]

/-! ### Stored bytes -/

theorem State.wf_ram {s : State} (h : s.wf = true) : Memory.wf Memory.ramSize s.bus.ram = true := by
  simp only [State.wf, Bus.wf, Bool.and_eq_true] at h
  exact h.1

theorem peek_workRam {a : Word} {i : BitVec 11} (h : decodeAddress a = .workRam i) (s : State) :
    s.peek a = some (Memory.read s.bus.ram i.toNat) := by
  simp only [State.peek, h]

/-- Within a start, an address keeps its stored byte when its cell of work RAM, if it has one, keeps its own. -/
theorem Within.peek_eq {s t : State} (h : Within s t) {a : Word}
    (hram : ∀ i, decodeAddress a = .workRam i → Memory.read t.bus.ram i.toNat = Memory.read s.bus.ram i.toNat) :
    t.peek a = s.peek a := by
  unfold State.peek
  cases hd : decodeAddress a with
  | workRam i => simp only [hram i hd]
  | cartridge c => simp only [h.mapper, h.prg]
  | _ => rfl

/-- A write outside work RAM leaves work RAM as it was. -/
theorem writeByte_ram_of_ne_workRam {a : Word} (h : ∀ i, decodeAddress a ≠ .workRam i) (v : Byte) (s : State) :
    (writeByte a v s).state.bus.ram = s.bus.ram := by
  unfold writeByte
  cases hd : decodeAddress a with
  | workRam i => exact absurd hd (h i)
  | cartridge c =>
    simp only [mapperWrite]
    split
    · rfl
    · split <;> rfl
  | _ => rfl

/-- A write keeps the stored byte of every address that decodes to another target (R53). -/
theorem writeByte_peek_other {a c : Word} (h : decodeAddress c ≠ decodeAddress a) (v : Byte) (s : State) :
    (writeByte a v s).state.peek c = s.peek c := by
  refine (writeByte_within a v s).peek_eq fun i hi => ?_
  by_cases ha : ∃ j, decodeAddress a = .workRam j
  · obtain ⟨j, hj⟩ := ha
    have hne : i.toNat ≠ j.toNat := fun e => h (by rw [hi, hj, BitVec.eq_of_toNat_eq e])
    rw [writeByte_workRam hj]
    exact Memory.read_write_other _ v hne
  · rw [writeByte_ram_of_ne_workRam (not_exists.mp ha)]

/-! ### The stack unit -/

/-- `pull8` is one pull in the vocabulary of the statements (R72). -/
theorem pulled_eq (s : State) :
    pulled s = onRegs (ramPut s (pullBytes s.pullZeroesSlot 1 s.regs.sp s.bus.ram))
      fun r => { r with sp := r.sp + 1#8 } := by
  cases h : s.pullZeroesSlot <;> simp only [pulled, h] <;> rfl

theorem pulled_ram (s : State) : (pulled s).bus.ram = pullBytes s.pullZeroesSlot 1 s.regs.sp s.bus.ram := by
  rw [pulled_eq]
  rfl

theorem pullBytes_two (z : Bool) (sp : Byte) (m : Memory) :
    pullBytes z 2 sp m = pullBytes z 1 (sp + 1#8) (pullBytes z 1 sp m) := rfl

theorem pulled_pulled_eq (s : State) :
    pulled (pulled s) = onRegs (ramPut s (pullBytes s.pullZeroesSlot 2 s.regs.sp s.bus.ram))
      fun r => { r with sp := r.sp + 2#8 } := by
  have h : s.regs.sp + 1#8 + 1#8 = s.regs.sp + 2#8 := by bv_omega
  rw [pulled_eq (pulled s), pulled_eq s]
  simp only [onRegs, ramPut, h, pullBytes_two]

theorem pulled_pulled_ram (s : State) :
    (pulled (pulled s)).bus.ram = pullBytes s.pullZeroesSlot 2 s.regs.sp s.bus.ram := by
  rw [pulled_pulled_eq]
  rfl

/-- `pull16` answers the word whose bytes stand in the two slots above SP (R73). -/
theorem pull16_of_slots {s : State} {w : Word} {sp : Byte} (hsp : s.regs.sp = sp - 2#8)
    (hhi : Memory.read s.bus.ram (stackIndex sp) = highByte w)
    (hlo : Memory.read s.bus.ram (stackIndex (sp - 1#8)) = lowByte w) : pull16 s = .ok w (pulled (pulled s)) := by
  have h1 : sp - 2#8 + 1#8 = sp - 1#8 := by bv_omega
  have h2 : sp - 1#8 + 1#8 = sp := BitVec.sub_add_cancel _ _
  rw [pull16_eq, hsp, h1, h2, hhi, hlo, joinBytes_high_low]

/-- The three pushes of an interrupt, in the vocabulary of the statements. -/
theorem pushedThree_ram (s : State) (ret : Word) (status : Byte) :
    (pushedThree s ret status).bus.ram = pushBytes [highByte ret, lowByte ret, status] s.regs.sp s.bus.ram := by
  have h : s.regs.sp - 2#8 = s.regs.sp - 1#8 - 1#8 := by bv_omega
  rw [pushedThree, h]
  rfl

/-- Pushes leave every byte outside their slots. -/
theorem read_pushBytes_other {bs : List Byte} {sp : Byte} {m : Memory} {i : Nat}
    (h : ∀ k, k < bs.length → i ≠ 0x0100 + (sp - BitVec.ofNat 8 k).toNat) :
    Memory.read (pushBytes bs sp m) i = Memory.read m i := by
  induction bs generalizing sp m with
  | nil => rfl
  | cons b bs ih =>
    have h0 : i ≠ 0x0100 + sp.toNat := by simpa using h 0 (Nat.zero_lt_succ _)
    have hrest : ∀ k, k < bs.length → i ≠ 0x0100 + (sp - 1#8 - BitVec.ofNat 8 k).toNat := fun k hk => by
      have e : sp - 1#8 - BitVec.ofNat 8 k = sp - BitVec.ofNat 8 (k + 1) := by
        rw [BitVec.ofNat_add]
        bv_omega
      rw [e]
      exact h (k + 1) (Nat.succ_lt_succ hk)
    rw [pushBytes, ih hrest, Memory.read_write_other _ _ h0]

/-- Pulls leave every byte outside their slots. -/
theorem read_pullBytes_other {z : Bool} {n : Nat} {sp : Byte} {m : Memory} {i : Nat}
    (h : ∀ k, k < n → i ≠ 0x0100 + (sp + 1#8 + BitVec.ofNat 8 k).toNat) :
    Memory.read (pullBytes z n sp m) i = Memory.read m i := by
  induction n generalizing sp m with
  | zero => rfl
  | succ n ih =>
    have h0 : i ≠ 0x0100 + (sp + 1#8).toNat := by simpa using h 0 (Nat.zero_lt_succ _)
    have hrest : ∀ k, k < n → i ≠ 0x0100 + (sp + 1#8 + 1#8 + BitVec.ofNat 8 k).toNat := fun k hk => by
      have e : sp + 1#8 + 1#8 + BitVec.ofNat 8 k = sp + 1#8 + BitVec.ofNat 8 (k + 1) := by
        rw [BitVec.ofNat_add]
        bv_omega
      rw [e]
      exact h (k + 1) (Nat.succ_lt_succ hk)
    rw [pullBytes, ih hrest]
    cases z with
    | false => rfl
    | true => exact Memory.read_write_other _ _ h0

/-- Pulls that zero no slot change nothing. -/
theorem pullBytes_false (n : Nat) (sp : Byte) (m : Memory) : pullBytes false n sp m = m := by
  induction n generalizing sp with
  | zero => rfl
  | succ n ih => exact ih (sp + 1#8)

/-! ### Work RAM after an instruction that stores to no operand -/

theorem takeInterrupt_ram {v ret : Word} {status : Byte} {s t : State} (h : takeInterrupt v ret status s = .ok () t) :
    t.bus.ram = pushBytes [highByte ret, lowByte ret, status] s.regs.sp s.bus.ram := by
  rw [takeInterrupt_eq] at h
  have k := readVector_keeps v ((pushedThree s ret status).withFlags { s.regs.p with i := true })
  cases hv : readVector v ((pushedThree s ret status).withFlags { s.regs.p with i := true }) with
  | fault e u => rw [hv] at h; cases h
  | ok pc u =>
    rw [hv] at h k
    obtain ⟨-, hram⟩ := k
    cases h
    exact hram.trans (pushedThree_ram s ret status)

theorem returnFromInterrupt_ram {s t : State} (h : returnFromInterrupt s = .ok () t) :
    t.bus.ram = pullBytes s.pullZeroesSlot 3 s.regs.sp s.bus.ram := by
  rw [returnFromInterrupt_eq] at h
  cases h
  rw [State.withPc_bus, pulled_pulled_ram, State.withFlags_bus, State.withFlags_regs,
    State.withFlags_pullZeroesSlot, pulled_sp, pulled_pullZeroesSlot, pulled_ram]
  rfl

/-- Work RAM `m'` is what the pushes and pulls of a form leave of `m`, from the stack pointer `sp`. -/
def StackUseOnly (f : Form) (zeroes : Bool) (sp : Byte) (m m' : Memory) : Prop :=
  ∃ bs : List Byte, bs.length = pushes f ∧ m' = pullBytes zeroes (pulls f) sp (pushBytes bs sp m)

/-- An Implied instruction with a register effect uses no stack. -/
theorem noStack_of_registerEffect {op : ImpliedOp} {g : Regs → Regs} (h : registerEffect op = some g) :
    pushes (.implied op) = 0 ∧ pulls (.implied op) = 0 := by
  cases op <;> cases h <;> exact ⟨rfl, rfl⟩

/-- A form that uses no stack and leaves work RAM as it was. -/
theorem StackUseOnly.of_eq {f : Form} {z : Bool} {sp : Byte} {m m' : Memory} (hpush : pushes f = 0)
    (hpull : pulls f = 0) (h : m' = m) : StackUseOnly f z sp m m' :=
  ⟨[], hpush.symm, by rw [hpull, h]; rfl⟩

theorem runImplied_stackUseOnly {op : ImpliedOp} {s t : State} (h : runImplied op s = .ok () t) :
    StackUseOnly (.implied op) s.pullZeroesSlot s.regs.sp s.bus.ram t.bus.ram := by
  cases hf : registerEffect op with
  | some g =>
    obtain ⟨hpush, hpull⟩ := noStack_of_registerEffect hf
    rw [runImplied_of_registerEffect hf] at h
    cases h
    exact .of_eq hpush hpull rfl
  | none =>
    cases op with
    | pha => rw [runImplied, push8_eq] at h; cases h; exact ⟨[s.regs.a], rfl, rfl⟩
    | php => rw [runImplied, push8_eq] at h; cases h; exact ⟨[s.regs.p.serialize], rfl, rfl⟩
    | pla => rw [runImplied, pull8_eq] at h; cases h; exact ⟨[], rfl, pulled_ram s⟩
    | plp => rw [runImplied, pull8_eq] at h; cases h; exact ⟨[], rfl, pulled_ram s⟩
    | rts => rw [runImplied, pull16_eq] at h; cases h; exact ⟨[], rfl, pulled_pulled_ram s⟩
    | rti => exact ⟨[], rfl, returnFromInterrupt_ram h⟩
    | brk => exact ⟨[_, _, _], rfl, takeInterrupt_ram (s := s.withFlags { s.regs.p with b := true }) h⟩
    | _ => cases hf

theorem runForm_stackUseOnly {f : Form} {s t : State} (h : runForm f s = .ok () t) (hf : storesOperand f = false) :
    StackUseOnly f s.pullZeroesSlot s.regs.sp s.bus.ram t.bus.ram := by
  cases f with
  | read op src =>
    obtain ⟨v, u, -, -, hram⟩ := runForm_read h
    exact .of_eq rfl rfl hram
  | write op m => cases hf
  | modify op tgt =>
    cases tgt with
    | acc => cases h; exact .of_eq rfl rfl rfl
    | mem m => cases hf
  | branch op d => cases h; split <;> exact .of_eq rfl rfl rfl
  | jump j =>
    obtain ⟨pc, u, -, -, -, hram⟩ := runForm_jump h
    exact .of_eq rfl rfl hram
  | call w => rw [runForm, push16_eq] at h; cases h; exact ⟨[_, _], rfl, rfl⟩
  | implied op => exact runImplied_stackUseOnly h

/-- An instruction that completes has run its form, with PC past its bytes. -/
theorem runForm_of_exec_next {i : Instr} {s t : State} (h : exec i s = .next t) :
    runForm i.form (s.advance i.length) = .ok () t := by
  obtain ⟨u, hu, hrun, -⟩ | ⟨e, u, hu, -, -⟩ := exec_cases i s
  · rw [hu] at h; cases h; exact hrun
  · rw [hu] at h; cases h

/-- An instruction that completes and stores to no operand changes work RAM only by its pushes and pulls. -/
theorem exec_stackUseOnly {i : Instr} {s t : State} (h : exec i s = .next t) (hf : storesOperand i.form = false) :
    StackUseOnly i.form s.pullZeroesSlot s.regs.sp s.bus.ram t.bus.ram :=
  runForm_stackUseOnly (s := s.advance i.length) (runForm_of_exec_next h) hf

/-- No form uses the stack and stores to an operand as well. -/
theorem storesOperand_of_usesStack {f : Form} (h : 0 < pushes f + pulls f) : storesOperand f = false := by
  cases f with
  | write op m => cases h
  | modify op tgt => cases h
  | _ => rfl

/-- An address of work RAM that decodes to another target than a stack slot has another index than that slot. -/
theorem ne_stackSlot_of_decode_ne {a : Word} {i : BitVec 11} {sp : Byte} (hi : decodeAddress a = .workRam i)
    (h : decodeAddress a ≠ decodeAddress (BitVec.ofNat 16 (0x0100 + sp.toNat))) : i.toNat ≠ 0x0100 + sp.toNat := by
  intro e
  rw [decodeAddress_stackSlot, ← e, BitVec.ofNat_toNat, BitVec.setWidth_eq] at h
  exact h hi

/-! ### What no step changes -/

/-- What only the host changes is the same in `t` as in `s`: the program bank, the mapper, the parameter and the line. -/
structure KeepsHostSide (s t : State) : Prop where
  prg : t.bus.prg = s.bus.prg
  mapper : t.bus.mapper = s.bus.mapper
  pullZeroesSlot : t.pullZeroesSlot = s.pullZeroesSlot
  irqLine : t.irqLine = s.irqLine

theorem Within.keepsHostSide {s u : State} {nmi : Bool} (h : Within (s.withNmi nmi) u) : KeepsHostSide s u :=
  ⟨h.prg, h.mapper, h.pullZeroesSlot, h.irqLine⟩

theorem KeepsHostSide.withDiag {s u : State} (h : KeepsHostSide s u) (d : Option Diagnostics) :
    KeepsHostSide s (u.withDiag d) :=
  ⟨h.prg, h.mapper, h.pullZeroesSlot, h.irqLine⟩

theorem KeepsHostSide.faultedState {s u : State} (h : KeepsHostSide s u) (op : Option Byte) (e : Raised) :
    KeepsHostSide s (faultedState s op e u) :=
  ⟨h.prg, h.mapper, h.pullZeroesSlot, h.irqLine⟩

theorem OutcomeWithin.keepsHostSide_next {s t : State} {o : Host.Outcome State Fault Refusal}
    (h : OutcomeWithin s o) (ho : o = .next t) : KeepsHostSide s t := by
  obtain ⟨nmi, u, hw, ⟨d, hd⟩ | ⟨op, e, he⟩⟩ := h
  · rw [hd] at ho; cases ho; exact hw.keepsHostSide.withDiag d
  · rw [he] at ho; cases ho

theorem OutcomeWithin.keepsHostSide_fault {s t : State} {r : FaultRecord} {o : Host.Outcome State Fault Refusal}
    (h : OutcomeWithin s o) (ho : o = .fault (Fault.report r t)) : KeepsHostSide s t := by
  obtain ⟨nmi, u, hw, ⟨d, hd⟩ | ⟨op, e, he⟩⟩ := h
  · rw [hd] at ho; cases ho
  · rw [he, endWithFault] at ho
    obtain ⟨-, rfl⟩ := Fault.report_inj (Host.Outcome.fault.inj ho)
    exact hw.keepsHostSide.faultedState op e

/-- A step that completes changes nothing of the host's. -/
theorem step_next_keepsHostSide {s t : State} (h : step s = .next t) : KeepsHostSide s t := by
  cases hf : s.fault with
  | none => exact (step_outcomeWithin hf).keepsHostSide_next h
  | some r => rw [step_of_fault hf] at h; cases h

/-- A step that faults changes nothing of the host's. -/
theorem step_fault_keepsHostSide {s t : State} {r : FaultRecord} (h : step s = .fault (Fault.report r t)) :
    KeepsHostSide s t := by
  cases hf : s.fault with
  | none => exact (step_outcomeWithin hf).keepsHostSide_fault h
  | some r' =>
    rw [step_of_fault hf] at h
    obtain ⟨-, rfl⟩ := Fault.report_inj (Host.Outcome.fault.inj h)
    exact ⟨rfl, rfl, rfl, rfl⟩

end Sys2Proof.Machine

namespace Sys2Proof.Claims

open Sys2Proof.Machine

/-! ### The obligations -/

/-- Settles O53: a step stays within its start, and a faulted state repeats itself. -/
theorem stepKeepsTheProgramBank : Obligations.StepKeepsTheProgramBank := by
  intro s t h
  have k : KeepsHostSide s t := by
    obtain hnext | ⟨f, r, hfault, rfl⟩ := h
    · exact step_next_keepsHostSide hnext
    · exact step_fault_keepsHostSide hfault
  exact ⟨k.prg, k.mapper, k.pullZeroesSlot, k.irqLine⟩

/-- Settles O7: mirrors decode to the same cell. -/
theorem ramMirrorsShareOneCell : Obligations.RamMirrorsShareOneCell := by
  intro s a b v k hs ha hb hab
  have hda := decodeAddress_workRam ha
  have hdb := decodeAddress_workRam hb
  rw [← hab] at hdb
  refine ⟨_, writeByte_workRam hda v s, ?_⟩
  rw [readByte_workRam k hdb, State.withBus_bus, Bus.withRam_ram,
    Memory.read_write_same_of_wf _ v (State.wf_ram hs)]

/-- Settles O8, from the frame of a write and the law of a cell just written. -/
theorem writeChangesOneCell : Obligations.WriteChangesOneCell := by
  intro s t a v h
  have hstate : (writeByte a v s).state = t := by rw [h, Res.state_ok]
  have hw : Within s t := hstate ▸ writeByte_within a v s
  have hregs : t.regs = s.regs := hstate ▸ writeByte_keeps_regs a v s
  refine ⟨fun c hc => hstate ▸ writeByte_peek_other hc v s, fun hs ha => ?_, fun ha c => ?_,
    hregs, hw.prg, hw.mapper, hw.fault⟩
  · have hd := decodeAddress_workRam ha
    rw [← hstate, writeByte_workRam hd, Res.state_ok, peek_workRam hd, State.withBus_bus, Bus.withRam_ram,
      Memory.read_write_same_of_wf _ v (State.wf_ram hs)]
  · have hne : ∀ i, decodeAddress a ≠ .workRam i := fun i hi => by
      have := decodeAddress_eq_workRam hi
      omega
    refine hw.peek_eq fun i _ => ?_
    rw [← hstate, writeByte_ram_of_ne_workRam hne]

/-- Settles O14: the two slots pushed are the two slots pulled, and the second push keeps the first. -/
theorem pulledWordIsThePushedWord : Obligations.PulledWordIsThePushedWord := by
  intro s w hs
  have hm := State.wf_ram hs
  have hm1 := Memory.wf_write (highByte w) hm (stackIndex_lt s.regs.sp)
  have hne : stackIndex s.regs.sp ≠ stackIndex (s.regs.sp - 1#8) := by
    simpa only [BitVec.sub_add_cancel] using stackIndex_succ_ne (s.regs.sp - 1#8)
  refine ⟨_, pulled (pulled _), push16_eq w s, pull16_of_slots (sp := s.regs.sp) rfl ?_ ?_, ?_⟩
  · rw [State.withSp_bus, State.putStack_ram, Memory.read_write_other _ _ hne]
    exact Memory.read_write_same_of_wf _ _ hm
  · exact Memory.read_write_same_of_wf _ _ hm1
  · rw [pulled_pulled_regs, State.withSp_regs, BitVec.sub_add_cancel]
    rfl

/-- Settles O46: with no push, and no pull that zeroes its slot, work RAM is as before. -/
theorem otherInstructionsStoreNothing : Obligations.OtherInstructionsStoreNothing := by
  intro i s t h hstore hpush hpull a
  obtain ⟨bs, hlen, hram⟩ := exec_stackUseOnly h hstore
  obtain rfl : bs = [] := List.eq_nil_of_length_eq_zero (hlen.trans hpush)
  have hkept : t.bus.ram = s.bus.ram := by
    obtain hnone | hoff := hpull
    · rw [hram, hnone]; rfl
    · rw [hram, hoff, pullBytes_false]; rfl
  exact (exec_next_within h).peek_eq fun j _ => by rw [hkept]

/-- Settles O48: pushes and pulls leave every byte outside their slots. -/
theorem stackInstructionsChangeOnlyTheirSlots : Obligations.StackInstructionsChangeOnlyTheirSlots := by
  intro i s t a h huse hpush hpull
  obtain ⟨bs, hlen, hram⟩ := exec_stackUseOnly h (storesOperand_of_usesStack huse)
  refine (exec_next_within h).peek_eq fun j hj => ?_
  rw [hram, read_pullBytes_other fun k hk => ne_stackSlot_of_decode_ne hj (hpull k hk),
    read_pushBytes_other fun k hk => ne_stackSlot_of_decode_ne hj (hpush k (hlen ▸ hk))]

/-- Settles O6, case by case. -/
theorem busDecodeHasFiveCases : Obligations.BusDecodeHasFiveCases := by
  intro a
  refine ⟨fun h => ⟨_, decodeAddress_workRam h, ?_⟩, fun h1 h2 => ⟨_, decodeAddress_ppuRegs h1 h2, ?_⟩,
    fun h1 h2 => ⟨_, decodeAddress_apuRegs h1 h2, ?_⟩, decodeAddress_unmapped, decodeAddress_cartridge⟩
  · rw [BitVec.toNat_ofNat]; omega
  · rw [BitVec.toNat_ofNat]; omega
  · rw [Fin.val_ofNat]; omega

/-- Settles O9: each access is the delivery to its device. -/
theorem deviceAccessesAreDelivered : Obligations.DeviceAccessesAreDelivered := by
  intro s a v k
  constructor
  all_goals
    intro r hr
    simp only [readByte, writeByte, hr]
    exact ⟨rfl, rfl⟩

/-- Settles O10: the hole decodes to no target. -/
theorem unmappedAccessesFault : Obligations.UnmappedAccessesFault := by
  intro s a v k ⟨hlo, hhi⟩
  have hd := decodeAddress_unmapped hlo hhi
  constructor
  · simp only [readByte, hd]
  · simp only [writeByte, hd]

/-- Settles O11, for each mapper and each of its answers. -/
theorem cartridgeAccessesGoToTheMapper : Obligations.CartridgeAccessesGoToTheMapper := by
  intro s a v k ha
  refine ⟨fun hm => ⟨readByte_reference k ha hm, writeByte_reference v ha hm⟩, fun hm => ⟨?_, ?_⟩⟩
  · have hread := readByte_other k ha hm
    cases hd : Config.otherMapperRead s.bus.draws a with
    | ok x => rw [hd] at hread; exact ⟨_, hread, rfl, rfl, rfl⟩
    | error d => rw [hd] at hread; exact ⟨_, hread, rfl, rfl⟩
  · cases hd : Config.otherMapperWrite s.bus.draws a v with
    | ok x => exact ⟨_, writeByte_other_ok ha hm hd, rfl, rfl, rfl⟩
    | error d => exact ⟨_, writeByte_other_error ha hm hd, rfl, rfl⟩

/-- Settles O12: the closed forms of the two pushes. -/
theorem pushesWrapAndNeverFault : Obligations.PushesWrapAndNeverFault :=
  fun s b w => ⟨push8_eq b s, push16_eq w s⟩

/-- Settles O13: the closed forms of the two pulls. -/
theorem pullsWrapAndNeverFault : Obligations.PullsWrapAndNeverFault := by
  intro s
  have h : s.regs.sp + 1#8 + 1#8 = s.regs.sp + 2#8 := by bv_omega
  constructor
  · rw [pull8_eq, pulled_eq]; rfl
  · rw [pull16_eq, pulled_pulled_eq, h]; rfl

end Sys2Proof.Claims
end

section
/-! PROOF. The statements about the encoding (spec/30_encoding.md): the decoder and the encoder agree, the undocumented
opcodes, and the faults of fetching and decoding. -/

namespace Sys2Proof.Laws

open EncodingForm

/-- Every instruction is the shape of its opcode, filled with its operand bytes. -/
theorem encodingForm (i : Instr) : EncodingForm.Statement i :=
  Instr.casesOn (motive := EncodingForm.Statement) i
    ldaImm ldaZp ldaZpX ldaAbs ldaAbsX ldaAbsY ldaIndX ldaIndY ldxImm ldxZp ldxZpY ldxAbs ldxAbsY ldyImm ldyZp ldyZpX
    ldyAbs ldyAbsX staZp staZpX staAbs staAbsX staAbsY staIndX staIndY stxZp stxZpY stxAbs styZp styZpX styAbs tax
    tay txa tya tsx txs pha php pla plp adcImm adcZp adcZpX adcAbs adcAbsX adcAbsY adcIndX adcIndY sbcImm sbcZp
    sbcZpX sbcAbs sbcAbsX sbcAbsY sbcIndX sbcIndY andImm andZp andZpX andAbs andAbsX andAbsY andIndX andIndY oraImm
    oraZp oraZpX oraAbs oraAbsX oraAbsY oraIndX oraIndY eorImm eorZp eorZpX eorAbs eorAbsX eorAbsY eorIndX eorIndY
    bitZp bitAbs cmpImm cmpZp cmpZpX cmpAbs cmpAbsX cmpAbsY cmpIndX cmpIndY cpxImm cpxZp cpxAbs cpyImm cpyZp cpyAbs
    aslZp aslZpX aslAbs aslAbsX aslAcc lsrZp lsrZpX lsrAbs lsrAbsX lsrAcc rolZp rolZpX rolAbs rolAbsX rolAcc rorZp
    rorZpX rorAbs rorAbsX rorAcc incZp incZpX incAbs incAbsX decZp decZpX decAbs decAbsX inx iny dex dey bcc bcs beq
    bmi bne bpl bvc bvs jmpAbs jmpInd jsr rts rti brk clc cld cli clv sec sed sei nop

end Sys2Proof.Laws

namespace Sys2Proof

open Sys2Proof.Laws Sys2Proof.Claims

/-! ### Filling a shape -/

/-- An instruction of the shape is the opcode byte `op`, then the operand bytes, low byte first (R91 to R93). -/
def Shape.EncodedBy (op : Byte) : Shape → Prop
  | .one i => encode i = [op]
  | .two mk => ∀ b, encode (mk b) = [op, b]
  | .three mk => ∀ w, encode (mk w) = [op, lowByte w, highByte w]

theorem Shape.encodedBy_one (op : Byte) (i : Instr) : (Shape.one i).EncodedBy op ↔ encode i = [op] := Iff.rfl

theorem Shape.encodedBy_two (op : Byte) (mk : Byte → Instr) :
    (Shape.two mk).EncodedBy op ↔ ∀ b, encode (mk b) = [op, b] := Iff.rfl

theorem Shape.encodedBy_three (op : Byte) (mk : Word → Instr) :
    (Shape.three mk).EncodedBy op ↔ ∀ w, encode (mk w) = [op, lowByte w, highByte w] := Iff.rfl

/-- A shape is filled by as many bytes as its length leaves after the opcode. -/
theorem length_of_fillShape {sh : Shape} {os : List Byte} {i : Instr} (h : fillShape sh os = some i) :
    os.length + 1 = sh.length := by
  match sh, os with
  | .one _, [] => rfl
  | .two _, [_] => rfl
  | .three _, [_, _] => rfl

/-- Every shape can be filled. -/
theorem exists_fillShape (sh : Shape) : ∃ os i, fillShape sh os = some i := by
  cases sh with
  | one i => exact ⟨[], i, rfl⟩
  | two mk => exact ⟨[0x00#8], mk 0x00#8, rfl⟩
  | three mk => exact ⟨[0x00#8, 0x00#8], mk (joinBytes 0x00#8 0x00#8), rfl⟩

theorem Shape.EncodedBy.encode_eq {op : Byte} {sh : Shape} (h : sh.EncodedBy op) {os : List Byte} {i : Instr}
    (hfill : fillShape sh os = some i) : encode i = op :: os := by
  match sh, os with
  | .one _, [] => cases hfill; exact h
  | .two _, [b] => cases hfill; exact h b
  | .three _, [lo, hi] => cases hfill; rw [h, lowByte_joinBytes, highByte_joinBytes]

/-! ### The opcode map -/

/-- An entry that the search finds is in the list. -/
theorem mem_of_lookupOpcode {rows : List (Byte × Shape)} {op : Byte} {sh : Shape}
    (h : lookupOpcode rows op = some sh) : (op, sh) ∈ rows := by
  induction rows with
  | nil => cases h
  | cons row rows ih =>
    obtain ⟨k, sh'⟩ := row
    rw [lookupOpcode] at h
    split at h
    next heq => cases h; rw [heq]; exact List.mem_cons_self
    next => exact List.mem_cons_of_mem _ (ih h)

/-- The opcode map of R96 and the table of R97 agree, entry by entry of each row. -/
theorem encodedBy_opcodeRow (n : Nat) : ∀ entry ∈ opcodeRow n, entry.2.EncodedBy entry.1 := by
  unfold opcodeRow
  split
  all_goals
    simp only [opcodeRow0, opcodeRow1, opcodeRow2, opcodeRow3, opcodeRow4, opcodeRow5, opcodeRow6, opcodeRow7,
      opcodeRow8, opcodeRow9, opcodeRowA, opcodeRowB, opcodeRowC, opcodeRowD, opcodeRowE, opcodeRowF,
      List.forall_mem_cons, List.not_mem_nil, false_implies, implies_true, and_true, Shape.encodedBy_one,
      Shape.encodedBy_two, Shape.encodedBy_three]
  all_goals
    and_intros
    all_goals intros; rfl

theorem encodedBy_of_decodeOpcode {op : Byte} {sh : Shape} (h : decodeOpcode op = some sh) : sh.EncodedBy op :=
  encodedBy_opcodeRow _ _ (mem_of_lookupOpcode h)

/-- The bytes without an entry in the opcode map are those of R103, byte by byte. -/
theorem decodeOpcode_eq_none_iff (op : Byte) : decodeOpcode op = none ↔ op.toNat ∈ undocumented := by
  revert op
  decide

/-! ### Decoding -/

theorem decode_of_decodeOpcode_none {op : Byte} (h : decodeOpcode op = none) (bs : List Byte) :
    decode (op :: bs) = .error (.illegalOpcode op) := by
  simp only [decode, h]

/-- What decodes to an instruction: the opcode of a shape, the bytes that fill it to the instruction, and the rest. -/
theorem decode_eq_ok_iff {bs rest : List Byte} {i : Instr} :
    decode bs = .ok (i, rest) ↔
      ∃ op sh os, bs = op :: (os ++ rest) ∧ decodeOpcode op = some sh ∧ fillShape sh os = some i := by
  constructor
  · intro h
    unfold decode at h
    split at h
    next => cases h
    next op tail =>
      split at h
      next => cases h
      next hop => cases h; exact ⟨op, _, [], rfl, hop, rfl⟩
      next b rest hop => cases h; exact ⟨op, _, [b], rfl, hop, rfl⟩
      next lo hi rest hop => cases h; exact ⟨op, _, [lo, hi], rfl, hop, rfl⟩
      next => cases h
  · rintro ⟨op, sh, os, rfl, hop, hfill⟩
    match sh, os with
    | .one _, [] => cases hfill; simp only [decode, hop, List.nil_append]
    | .two _, [_] => cases hfill; simp only [decode, hop, List.cons_append, List.nil_append]
    | .three _, [_, _] => cases hfill; simp only [decode, hop, List.cons_append, List.nil_append]

/-- An opcode byte that is not undocumented is that of an instruction. -/
theorem exists_encode_head {op : Byte} (h : op.toNat ∉ undocumented) : ∃ i : Instr, (encode i).head? = some op := by
  cases hop : decodeOpcode op with
  | none => exact absurd ((decodeOpcode_eq_none_iff op).mp hop) h
  | some sh =>
    obtain ⟨os, i, hfill⟩ := exists_fillShape sh
    exact ⟨i, by rw [(encodedBy_of_decodeOpcode hop).encode_eq hfill, List.head?_cons]⟩

/-- The opcode byte of an instruction decodes to a shape of the instruction's length. -/
theorem decodeOpcode_of_encode_head {i : Instr} {op : Byte} (h : (encode i).head? = some op) :
    ∃ sh, decodeOpcode op = some sh ∧ (encode i).length = sh.length := by
  obtain ⟨sh, hop, hfill⟩ := encodingForm i
  cases h
  exact ⟨sh, hop, length_of_fillShape hfill⟩

end Sys2Proof

namespace Sys2Proof.Machine

open Sys2Proof.Laws Sys2Proof.Claims

/-! ### The step of a fetch that faults -/

/-- The status byte by concatenation is the status byte as a sum of bits (R31). -/
theorem serialize_eq_statusByte (p : Flags) : p.serialize = statusByte p := by
  obtain ⟨n, v, b, d, i, z, c⟩ := p
  revert n v b d i z c
  decide

theorem snapshot_eq_snapshotOf (r : Regs) : r.snapshot = snapshotOf r := by
  rw [Regs.snapshot, serialize_eq_statusByte]
  rfl

/-- The fault record of R305 in the vocabulary of the statements, for a step that starts in `s`. -/
def recordOf (s : State) (opcode : Option Byte) (e : Raised) : FaultRecord :=
  { kind := e.kind, access := e.access, address := e.address, opcode := opcode, opaddr := s.regs.pc,
    snapshot := snapshotOf s.regs, detail := e.detail }

theorem faultRecord_eq_recordOf (s : State) (opcode : Option Byte) (e : Raised) :
    faultRecord s.regs opcode e = recordOf s opcode e := by
  rw [faultRecord, snapshot_eq_snapshotOf]
  rfl

/-- A fault raised before any register changed leaves everything but the latch as it was when raised. -/
theorem endWithFault_of_regs_eq {s t : State} (h : t.regs = s.regs) (opcode : Option Byte) (e : Raised) :
    endWithFault s opcode e t =
      .fault (Fault.report (recordOf s opcode e) { t with fault := some (recordOf s opcode e) }) := by
  rw [endWithFault, faultedState, faultRecord_eq_recordOf, ← h]
  rfl

/-- A read that answers keeps the registers and the mapper. -/
theorem readByte_ok_keeps {k : AccessKind} {a : Word} {s t : State} {v : Byte} (h : readByte k a s = .ok v t) :
    t.regs = s.regs ∧ t.bus.mapper = s.bus.mapper := by
  have hk := readByte_keeps k a s
  have hw := readByte_within k a s
  rw [h] at hk hw
  exact ⟨hk.1, hw.mapper⟩

theorem readByte_fault_keeps_regs {k : AccessKind} {a : Word} {s t : State} {e : Raised}
    (h : readByte k a s = .fault e t) : t.regs = s.regs := by
  have hk := readByte_keeps k a s
  rw [h] at hk
  exact hk.1

/-- A read of the unmapped range faults and changes nothing (R58, R300). -/
theorem readByte_unmapped (k : AccessKind) {a : Word} (hlo : 0x4018 ≤ a.toNat) (hhi : a.toNat < 0x8000) (s : State) :
    readByte k a s = .fault ⟨.unmappedAddress, k, a, none⟩ s := by
  simp only [readByte, decodeAddress_unmapped hlo hhi]

/-- A step that ends with the fault of a fetch, made after fetches that answered, has the record of that fetch. -/
theorem endsWithFetchFault_of_step {s u t : State} {opcode : Option Byte} {a : Word} {e : Raised}
    (hu : u.regs = s.regs ∧ u.bus.mapper = s.bus.mapper) (hread : readByte .fetch a u = .fault e t)
    (hstep : step s = endWithFault s opcode e t) : EndsWithFetchFault s opcode a e t := by
  obtain ⟨hregs, hmapper⟩ := hu
  rw [endWithFault_of_regs_eq ((readByte_fault_keeps_regs hread).trans hregs)] at hstep
  obtain ⟨kind, access, address, detail⟩ := e
  obtain ⟨rfl, rfl, ⟨hlo, hhi, rfl, hdetail, -⟩ | ⟨hlo, hm, rfl, hdetail, -⟩⟩ := readByte_fault hread
  · exact .inl ⟨⟨hlo, hhi⟩, hdetail, hstep⟩
  · exact .inr ⟨hlo, hmapper ▸ hm, hdetail, hstep⟩

/-- With no latched fault and no interrupt to take, the step executes an instruction (R120, R314). -/
theorem step_of_runsInstruction {s : State} (h : runsInstruction s) : step s = runInstruction s := by
  obtain ⟨hfault, hnmi, hirq⟩ := h
  have hnone : pendingInterrupt s = none := by
    obtain hirq | hi := hirq
    · simp [pendingInterrupt, hnmi, hirq]
    · simp [pendingInterrupt, hnmi, hi]
  obtain ⟨k, hk, -⟩ | ⟨-, hstep⟩ := step_cases hfault
  · rw [hnone] at hk; cases hk
  · exact hstep

theorem runInstruction_of_opcode_fault {s t : State} {e : Raised} (h : readByte .fetch s.regs.pc s = .fault e t) :
    runInstruction s = endWithFault s none e t := by
  simp only [runInstruction, h]

theorem runInstruction_of_undocumented {s u : State} {op : Byte} (h : readByte .fetch s.regs.pc s = .ok op u)
    (hop : decodeOpcode op = none) :
    runInstruction s = endWithFault s (some op) ⟨.illegalOpcode, .fetch, s.regs.pc, none⟩ u := by
  simp only [runInstruction, h, hop]

theorem runInstruction_of_operand_fault {s u t : State} {op : Byte} {sh : Shape} {e : Raised}
    (h : readByte .fetch s.regs.pc s = .ok op u) (hop : decodeOpcode op = some sh)
    (hf : fetchOperands sh s.regs.pc u = .fault e t) : runInstruction s = endWithFault s (some op) e t := by
  simp only [runInstruction, h, hop, hf]

/-- An opcode fetch that faults ends the step, with no opcode in the record (R305). -/
theorem endsWithFetchFault_of_opcode_fault {s t : State} {e : Raised} (hs : runsInstruction s)
    (h : readByte .fetch s.regs.pc s = .fault e t) : EndsWithFetchFault s none s.regs.pc e t :=
  endsWithFetchFault_of_step ⟨rfl, rfl⟩ h ((step_of_runsInstruction hs).trans (runInstruction_of_opcode_fault h))

/-- An undocumented opcode ends the step with IllegalOpcode (R105, R301). -/
theorem step_of_undocumented {s u : State} {op : Byte} (hs : runsInstruction s)
    (h : readByte .fetch s.regs.pc s = .ok op u) (hop : op.toNat ∈ undocumented) :
    step s = .fault (.illegalOpcode (recordOf s (some op) ⟨.illegalOpcode, .fetch, s.regs.pc, none⟩)
      { u with fault := some (recordOf s (some op) ⟨.illegalOpcode, .fetch, s.regs.pc, none⟩) }) := by
  rw [step_of_runsInstruction hs, runInstruction_of_undocumented h ((decodeOpcode_eq_none_iff op).mpr hop),
    endWithFault_of_regs_eq (readByte_ok_keeps h).1]
  rfl

/-- One operand-byte fetch, then those after it. -/
theorem operandFetchFaultsEnd_succ {s u : State} {op : Byte} {n : Nat} {a : Word}
    (hfault : ∀ {e t}, readByte .fetch a u = .fault e t → EndsWithFetchFault s (some op) a e t)
    (hok : ∀ {b v}, readByte .fetch a u = .ok b v → OperandFetchFaultsEnd s op n (a + 1#16) v) :
    OperandFetchFaultsEnd s op (n + 1) a u := by
  rw [OperandFetchFaultsEnd]
  cases h : readByte .fetch a u with
  | fault e t => exact hfault h
  | ok b v => exact hok h

/-- Each operand-byte fetch that the opcode's shape asks for ends the step when it faults (R141). -/
theorem operandFetchFaultsEnd_of_decodeOpcode {s u : State} {op : Byte} {sh : Shape} (hs : runsInstruction s)
    (h : readByte .fetch s.regs.pc s = .ok op u) (hop : decodeOpcode op = some sh) :
    OperandFetchFaultsEnd s op (sh.length - 1) (s.regs.pc + 1#16) u := by
  have hstep : ∀ {e t}, fetchOperands sh s.regs.pc u = .fault e t → step s = endWithFault s (some op) e t :=
    fun hf => (step_of_runsInstruction hs).trans (runInstruction_of_operand_fault h hop hf)
  have hu := readByte_ok_keeps h
  cases sh with
  | one i => exact trivial
  | two mk =>
    exact operandFetchFaultsEnd_succ
      (fun h1 => endsWithFetchFault_of_step hu h1 (hstep (by rw [fetchOperands, h1, Res.bind_fault])))
      fun _ => trivial
  | three mk =>
    have hpc : s.regs.pc + 1#16 + 1#16 = s.regs.pc + 2#16 := by bv_omega
    refine operandFetchFaultsEnd_succ
      (fun h1 => endsWithFetchFault_of_step hu h1 (hstep (by rw [fetchOperands, h1, Res.bind_fault]))) fun h1 => ?_
    obtain ⟨hregs, hmapper⟩ := readByte_ok_keeps h1
    rw [hpc]
    exact operandFetchFaultsEnd_succ
      (fun h2 => endsWithFetchFault_of_step ⟨hregs.trans hu.1, hmapper.trans hu.2⟩ h2
        (hstep (by rw [fetchOperands, h1, Res.bind_ok, h2, Res.bind_fault])))
      fun _ => trivial

end Sys2Proof.Machine

namespace Sys2Proof.Claims

open Sys2Proof.Laws Sys2Proof.Machine

/-! ### The obligations -/

/-- Settles O2: an instruction fills the shape that its opcode decodes to. -/
theorem decodeOfEncodeIsIdentity : Obligations.DecodeOfEncodeIsIdentity := by
  intro i rest _
  obtain ⟨sh, hop, hfill⟩ := encodingForm i
  exact decode_eq_ok_iff.mpr ⟨i.opcode, sh, i.form.bytes, rfl, hop, hfill⟩

/-- Settles O3: what fills the shape of an opcode is encoded by that opcode and the bytes filled in. -/
theorem encodeOfDecodeIsIdentity : Obligations.EncodeOfDecodeIsIdentity := by
  intro bs rest i h
  obtain ⟨op, sh, os, rfl, hop, hfill⟩ := decode_eq_ok_iff.mp h
  rw [(encodedBy_of_decodeOpcode hop).encode_eq hfill, List.cons_append]

/-- Settles O56: an unmapped or undocumented opcode by the step's equations, an operand byte by the opcode's shape. -/
theorem fetchFaults : Obligations.FetchFaults := by
  intro s hs
  refine ⟨fun ⟨hlo, hhi⟩ => ?_,
    fun op hpeek hop => step_of_undocumented hs (readByte_of_peek .fetch hpeek) hop, ?_⟩
  · have hread := readByte_unmapped .fetch hlo hhi s
    rw [step_of_runsInstruction hs, runInstruction_of_opcode_fault hread, endWithFault_of_regs_eq rfl]
    rfl
  · cases hread : readByte .fetch s.regs.pc s with
    | fault e t => exact endsWithFetchFault_of_opcode_fault hs hread
    | ok op u =>
      refine ⟨step_of_undocumented hs hread, exists_encode_head, fun i hi => ?_⟩
      obtain ⟨sh, hop, hlen⟩ := decodeOpcode_of_encode_head hi
      rw [hlen]
      exact operandFetchFaultsEnd_of_decodeOpcode hs hread hop

/-- Settles O1: each word decodes by evaluation. -/
theorem decodesTheSpecsWords : Obligations.DecodesTheSpecsWords :=
  ⟨rfl, rfl, rfl, rfl, rfl, rfl, rfl, rfl, rfl, rfl, rfl, rfl⟩

/-- Settles O4, from the opcode map byte by byte. -/
theorem undocumentedOpcodesAreRejected : Obligations.UndocumentedOpcodesAreRejected :=
  ⟨rfl, fun op => ⟨decodeOpcode_eq_none_iff op, fun hop rest =>
    decode_of_decodeOpcode_none ((decodeOpcode_eq_none_iff op).mpr hop) rest⟩⟩

end Sys2Proof.Claims
end

section
/-! PROOF. The statements about the execution loop (spec/40_execution_loop.md): what the fetches of a step leave, the
step of the instruction fetched, PC after an instruction that is no control transfer, the self-loop, and `power()`. -/

namespace Sys2Proof

/-! ### The length of an encoding -/

theorem MemArg.length_bytes (m : MemArg) : m.bytes.length + 1 = m.mode.length := by
  cases m <;> rfl

/-- The operand bytes of a form are those of its mode (R94). -/
theorem Form.length_bytes (f : Form) : f.bytes.length + 1 = f.mode.length := by
  cases f with
  | read op src =>
    cases src with
    | imm v => rfl
    | mem m => exact m.length_bytes
  | write op m => exact m.length_bytes
  | modify op tgt =>
    cases tgt with
    | acc => rfl
    | mem m => exact m.length_bytes
  | jump t => cases t <;> rfl
  | _ => rfl

theorem length_encode (i : Instr) : (encode i).length = i.length := i.form.length_bytes

end Sys2Proof

namespace Sys2Proof.Machine

open Sys2Proof.Laws Sys2Proof.Claims

/-! ### PC after an instruction that completes -/

theorem readEffect_pc (op : ReadOp) (v : Byte) (r : Regs) : (readEffect op v r).pc = r.pc := by
  cases op <;> rfl

theorem registerEffect_pc {op : ImpliedOp} {f : Regs → Regs} (h : registerEffect op = some f) (r : Regs) :
    (f r).pc = r.pc := by
  cases op <;> cases h <;> rfl

/-- Only a control transfer moves PC once it is past the instruction's bytes (R124). -/
theorem RegsAfter.pc_eq {f : Form} {r q : Regs} (h : RegsAfter f r q) (hf : transfersControl f = false) :
    q.pc = r.pc := by
  cases h with
  | read op src v => exact readEffect_pc op v r
  | register op g hg => exact registerEffect_pc hg r
  | write | modifyAcc | modifyMem | pha | php | pla | plp => rfl
  | branch | jump | call | rts | rti | brk => cases hf

/-! ### Accesses that only read -/

/-- From `s` to `t` the bus was only read: no register and no byte of work RAM has changed. -/
structure OnlyReads (s t : State) : Prop where
  within : Within s t
  regs : t.regs = s.regs
  ram : t.bus.ram = s.bus.ram

theorem OnlyReads.trans {s t u : State} (h : OnlyReads s t) (k : OnlyReads t u) : OnlyReads s u :=
  ⟨h.within.trans k.within, k.regs.trans h.regs, k.ram.trans h.ram⟩

/-- Reads leave every stored byte as it was. -/
theorem OnlyReads.peek_eq {s t : State} (h : OnlyReads s t) (a : Word) : t.peek a = s.peek a :=
  h.within.peek_eq fun _ _ => by rw [h.ram]

theorem onlyReads_of_readByte {k : AccessKind} {a : Word} {s t : State} {v : Byte} (h : readByte k a s = .ok v t) :
    OnlyReads s t := by
  have hw := readByte_within k a s
  have hk := readByte_keeps k a s
  rw [h] at hw hk
  exact ⟨hw, hk.1, hk.2⟩

/-! ### The step of the instruction fetched -/

/-- A sequence of fetches that answers: the first byte is fetched, then the others. -/
theorem fetchSequence_succ_ok {n : Nat} {a : Word} {s t : State} {b : Byte} {bs : List Byte}
    (h : fetchSequence (n + 1) a s = .ok (b :: bs) t) :
    ∃ u, readByte .fetch a s = .ok b u ∧ fetchSequence n (a + 1#16) u = .ok bs t := by
  rw [fetchSequence] at h
  cases hread : readByte .fetch a s with
  | fault e u => rw [hread] at h; cases h
  | ok b' u =>
    simp only [hread] at h
    cases hseq : fetchSequence n (a + 1#16) u with
    | fault e v => rw [hseq] at h; cases h
    | ok bs' v => rw [hseq] at h; cases h; exact ⟨u, rfl, hseq⟩

/-- The bytes that fill a shape, fetched one after another, are the operand fetches of the shape (R141). -/
theorem fetchOperands_of_fetchSequence {sh : Shape} {os : List Byte} {i : Instr} {a : Word} {s t : State}
    (hfetch : fetchSequence os.length (a + 1#16) s = .ok os t) (hfill : fillShape sh os = some i) :
    fetchOperands sh a s = .ok i t := by
  match sh, os with
  | .one _, [] => cases hfetch; cases hfill; rfl
  | .two _, [b] =>
    obtain ⟨u, hread, hend⟩ := fetchSequence_succ_ok hfetch
    cases hend
    cases hfill
    rw [fetchOperands, hread, Res.bind_ok]
  | .three _, [lo, hi] =>
    have ha : a + 1#16 + 1#16 = a + 2#16 := by bv_omega
    obtain ⟨u, hlo, hrest⟩ := fetchSequence_succ_ok hfetch
    obtain ⟨v, hhi, hend⟩ := fetchSequence_succ_ok hrest
    cases hend
    cases hfill
    rw [ha] at hhi
    rw [fetchOperands, hlo, Res.bind_ok, hhi, Res.bind_ok]

theorem onlyReads_of_fetchOperands {sh : Shape} {a : Word} {s t : State} {i : Instr}
    (h : fetchOperands sh a s = .ok i t) : OnlyReads s t := by
  have hw := fetchOperands_within sh a s
  have hk := fetchOperands_keeps sh a s
  rw [h] at hw hk
  exact ⟨hw, hk.1, hk.2⟩

/-- The fetches of the next step answer the instruction `i` with the opcode byte `op`, and leave `t`. -/
def FetchesInstr (s : State) (op : Byte) (i : Instr) (t : State) : Prop :=
  ∃ sh u, readByte .fetch s.regs.pc s = .ok op u ∧ decodeOpcode op = some sh ∧
    fetchOperands sh s.regs.pc u = .ok i t

theorem FetchesInstr.onlyReads {s t : State} {op : Byte} {i : Instr} (h : FetchesInstr s op i t) : OnlyReads s t := by
  obtain ⟨sh, u, hread, -, hops⟩ := h
  exact (onlyReads_of_readByte hread).trans (onlyReads_of_fetchOperands hops)

/-- The step is the meaning of the instruction fetched, at this boundary, and the diagnostic record (R120 to R123). -/
theorem FetchesInstr.step_eq {s t : State} {op : Byte} {i : Instr} (h : FetchesInstr s op i t)
    (hs : runsInstruction s) : step s = recordDiagnostics s.regs.pc (some op) (exec i t) := by
  obtain ⟨sh, u, hread, hop, hops⟩ := h
  rw [step_of_runsInstruction hs]
  simp only [runInstruction, hread, hop, hops]

/-- Fetched bytes that decode to an instruction are the fetches of that instruction. -/
theorem fetchesInstr_of_decode {s t : State} {bs : List Byte} {i : Instr}
    (hfetch : fetchSequence bs.length s.regs.pc s = .ok bs t) (hdec : decode bs = .ok (i, [])) :
    ∃ op, bs.head? = some op ∧ FetchesInstr s op i t := by
  obtain ⟨op, sh, os, rfl, hop, hfill⟩ := decode_eq_ok_iff.mp hdec
  rw [List.append_nil] at hfetch
  obtain ⟨u, hread, hrest⟩ := fetchSequence_succ_ok hfetch
  exact ⟨op, rfl, sh, u, hread, hop, fetchOperands_of_fetchSequence hrest hfill⟩

/-! ### The self-loop -/

/-- Three fetches that answer, one after another from PC on, are the look at PC, where it is taken (R127). -/
theorem bytesAtPc_of_reads {s s1 s2 s3 : State} {op lo hi : Byte} (ha0 : inRamOrCartridge s.regs.pc = true)
    (ha1 : inRamOrCartridge (s.regs.pc + 1#16) = true) (ha2 : inRamOrCartridge (s.regs.pc + 2#16) = true)
    (h0 : readByte .fetch s.regs.pc s = .ok op s1) (h1 : readByte .fetch (s.regs.pc + 1#16) s1 = .ok lo s2)
    (h2 : readByte .fetch (s.regs.pc + 2#16) s2 = .ok hi s3) : bytesAtPc s = some (op, lo, hi) := by
  simp only [bytesAtPc, ha0, ha1, ha2, h0, h1, h2, Bool.and_self, if_true, Res.bind_ok]

theorem inRamOrCartridge_of_cartridge {a : Word} (h : 0x8000 ≤ a.toNat) : inRamOrCartridge a = true := by
  simp only [inRamOrCartridge, decodeAddress_cartridge h]

/-- A cartridge read answers with another mapper exactly when the mapper does, and delivers the call. -/
theorem readByte_other_eq_ok_iff {k : AccessKind} {a : Word} {s t : State} {v : Byte} (h : 0x8000 ≤ a.toNat)
    (hm : s.bus.mapper = .other) :
    readByte k a s = .ok v t ↔ Config.otherMapperRead s.bus.draws a = .ok v ∧
      t = s.withBus (s.bus.draw.log (.mapperRead a v)) := by
  rw [readByte_other k h hm]
  cases Config.otherMapperRead s.bus.draws a with
  | error d => simp
  | ok w =>
    simp only [Res.ok.injEq, Except.ok.injEq]
    constructor
    · rintro ⟨rfl, rfl⟩; exact ⟨rfl, rfl⟩
    · rintro ⟨rfl, rfl⟩; exact ⟨rfl, rfl⟩

/-- With another mapper the look at PC in cartridge space answers what the mapper does at the next three draws. -/
theorem bytesAtPc_other_iff {s : State} {op lo hi : Byte} (hm : s.bus.mapper = .other)
    (hpc : 0x8000 ≤ s.regs.pc.toNat) (htop : s.regs.pc.toNat ≤ 0xFFFD) :
    bytesAtPc s = some (op, lo, hi) ↔
      Config.otherMapperRead s.bus.draws s.regs.pc = .ok op ∧
      Config.otherMapperRead (s.bus.draws + 1) (s.regs.pc + 1#16) = .ok lo ∧
      Config.otherMapperRead (s.bus.draws + 2) (s.regs.pc + 2#16) = .ok hi := by
  have hpc1 : 0x8000 ≤ (s.regs.pc + 1#16).toNat := by bv_omega
  have hpc2 : 0x8000 ≤ (s.regs.pc + 2#16).toNat := by bv_omega
  constructor
  · intro h
    obtain ⟨s1, s2, s3, h0, h1, h2⟩ := reads_of_bytesAtPc h
    obtain ⟨hop, rfl⟩ := (readByte_other_eq_ok_iff hpc hm).mp h0
    obtain ⟨hlo, rfl⟩ := (readByte_other_eq_ok_iff hpc1 (by exact hm)).mp h1
    obtain ⟨hhi, -⟩ := (readByte_other_eq_ok_iff hpc2 (by exact hm)).mp h2
    exact ⟨hop, hlo, hhi⟩
  · rintro ⟨hop, hlo, hhi⟩
    exact bytesAtPc_of_reads (inRamOrCartridge_of_cartridge hpc) (inRamOrCartridge_of_cartridge hpc1)
      (inRamOrCartridge_of_cartridge hpc2) ((readByte_other_eq_ok_iff hpc hm).mpr ⟨hop, rfl⟩)
      ((readByte_other_eq_ok_iff hpc1 (by exact hm)).mpr ⟨hlo, rfl⟩)
      ((readByte_other_eq_ok_iff hpc2 (by exact hm)).mpr ⟨hhi, rfl⟩)

/-- A run ends in success exactly where the look at PC answers a `JMP` to PC (R127). -/
theorem runEnd_selfLoop_iff_bytesAtPc {s : State} (h : s.fault = none) :
    runEnd s = some .selfLoop ↔ bytesAtPc s = some (0x4C#8, lowByte s.regs.pc, highByte s.regs.pc) := by
  rw [runEnd_selfLoop_iff, atSelfLoop_iff]
  exact and_iff_right h

/-- Where its bytes are stored, a `JMP` to its own address is a self-loop. -/
theorem runEnd_selfLoop_of_peek {s : State} (h : s.fault = none) (h0 : s.peek s.regs.pc = some 0x4C#8)
    (h1 : s.peek (s.regs.pc + 1#16) = some (lowByte s.regs.pc))
    (h2 : s.peek (s.regs.pc + 2#16) = some (highByte s.regs.pc)) : runEnd s = some .selfLoop :=
  (runEnd_selfLoop_iff_bytesAtPc h).mpr (bytesAtPc_of_peek h0 h1 h2)

/-- The next step at a self-loop fetches the `JMP`. -/
theorem fetchesInstr_of_selfLoop {s s1 s2 s3 : State} (h0 : readByte .fetch s.regs.pc s = .ok 0x4C#8 s1)
    (h1 : readByte .fetch (s.regs.pc + 1#16) s1 = .ok (lowByte s.regs.pc) s2)
    (h2 : readByte .fetch (s.regs.pc + 2#16) s2 = .ok (highByte s.regs.pc) s3) :
    FetchesInstr s 0x4C#8 (.jmpAbs s.regs.pc) s3 := by
  refine ⟨.three .jmpAbs, s1, h0, rfl, ?_⟩
  rw [fetchOperands, h1, Res.bind_ok, h2, Res.bind_ok, joinBytes_high_low]

/-- A `JMP` to PC changes nothing (R260). -/
theorem exec_jmpAbs_of_pc_eq {s : State} {w : Word} (h : s.regs.pc = w) : exec (.jmpAbs w) s = .next s := by
  subst h
  rfl

theorem runsInstruction_of_onlyReads {s t : State} (h : OnlyReads s t) (hs : runsInstruction s) :
    runsInstruction t := by
  rw [runsInstruction, h.within.fault, h.within.nmiPending, h.within.irqLine, h.regs]
  exact hs

/-- A read that answers where a byte is stored answers that byte and changes nothing. -/
theorem readByte_ok_of_stored {k : AccessKind} {a : Word} {s t : State} {v : Byte} (h : readByte k a s = .ok v t)
    (hp : s.peek a ≠ none) : s.peek a = some v ∧ t = s := by
  obtain ⟨w, hw⟩ := Option.ne_none_iff_exists'.mp hp
  rw [readByte_of_peek k hw] at h
  cases h
  exact ⟨hw, rfl⟩

/-! ### `power()` -/

/-- The registers after `power()`, with PC given (R340, R342). -/
def zeroedRegs (pc : Word) : Regs :=
  { a := 0x00#8, x := 0x00#8, y := 0x00#8, sp := 0xFD#8, pc := pc, p := flagsOf 0x00#8 }

theorem clearCore_regs (s : State) : (clearCore s).regs = zeroedRegs 0x0000#16 := rfl

theorem clearCore_draws (s : State) : (clearCore s).bus.draws = s.bus.draws := rfl

/-- With another mapper a vector in cartridge space reads as the mapper's two answers, or faults on the failing one. -/
theorem readVector_other {v : Word} {s : State} (h : 0x8000 ≤ v.toNat) (h1 : 0x8000 ≤ (v + 1#16).toNat)
    (hm : s.bus.mapper = .other) :
    match answeredWord s.bus.draws v with
    | .ok w => ∃ t, readVector v s = .ok w t
    | .error (a, d) => ∃ t, readVector v s = .fault ⟨.mapperFault, .read, a, some d⟩ t := by
  rw [readVector, readByte_other .read h hm, answeredWord]
  cases Config.otherMapperRead s.bus.draws v with
  | error d => exact ⟨_, rfl⟩
  | ok lo =>
    simp only [Res.bind_ok]
    rw [readByte_other .read h1 (by exact hm), State.withBus_bus, Bus.log_draws, Bus.draw_draws]
    cases Config.otherMapperRead (s.bus.draws + 1) (v + 1#16) with
    | error d => exact ⟨_, rfl⟩
    | ok hi => exact ⟨_, rfl⟩

/-- Whatever the vector read answers, `power()` clears work RAM, the NMI latch and the diagnostic record, and keeps what
is the mapper's and the host's (R340, R341). -/
theorem power_clears_and_keeps (s : State) :
    s.power.bus.ram = [] ∧ s.power.nmiPending = false ∧ s.power.diag = none ∧ s.power.bus.prg = s.bus.prg ∧
      s.power.bus.mapper = s.bus.mapper ∧ s.power.pullZeroesSlot = s.pullZeroesSlot ∧
      s.power.irqLine = s.irqLine := by
  have hram := (readVector_keeps resetVector (clearCore s)).2
  obtain ⟨w, t, hv, hpower, hw⟩ | ⟨e, t, hv, hpower, hw⟩ := power_cases s
  all_goals
    rw [hv] at hram
    rw [hpower]
    exact ⟨hram, hw.nmiPending, hw.diag, hw.prg, hw.mapper, hw.pullZeroesSlot, hw.irqLine⟩

/-- When the vector read answers, PC is the word and no fault is latched (R343). -/
theorem power_of_readVector_ok {s t : State} {w : Word} (h : readVector resetVector (clearCore s) = .ok w t) :
    s.power.fault = none ∧ s.power.regs = zeroedRegs w := by
  have hw := readVector_within resetVector (clearCore s)
  have hk := readVector_keeps resetVector (clearCore s)
  have hpower : s.power = t.withPc w := by simp only [State.power, h]
  rw [h, Res.state_ok] at hw hk
  rw [hpower, State.withPc_fault, State.withPc_regs, hk.1]
  exact ⟨hw.fault, rfl⟩

/-- When the vector read faults, the fault is latched and PC stays 0x0000 (R343). -/
theorem power_of_readVector_fault {s t : State} {e : Raised}
    (h : readVector resetVector (clearCore s) = .fault e t) :
    s.power.fault = some (faultRecord (zeroedRegs 0x0000#16) none e) ∧ s.power.regs = zeroedRegs 0x0000#16 := by
  have hpower : s.power = faultedState (clearCore s) none e t := by simp only [State.power, h]
  rw [hpower]
  exact ⟨rfl, rfl⟩

end Sys2Proof.Machine

namespace Sys2Proof.Claims

open Sys2Proof.Machine

/-! ### The obligations -/

/-- Settles O45: the form has left PC where its bytes put it. -/
theorem pcPassesTheInstruction : Obligations.PcPassesTheInstruction := by
  intro i s t h hf
  rw [(exec_regsAfter h).pc_eq hf, length_encode]
  rfl

/-- Settles O59: with the reference mapper by its bank, with another mapper by the two answers to the vector's reads. -/
theorem powerResetsTheCore : Obligations.PowerResetsTheCore := by
  intro s zeroed
  refine ⟨fun m prg => rfl, fun hm => ?_, fun hm => ?_⟩
  · have hpower := power_reference hm
    exact ⟨(powerOutcome_next_iff s).mpr (by rw [hpower]; rfl), hpower⟩
  · obtain ⟨hram, hnmi, hdiag, hprg, hmapper, hzeroes, hirq⟩ := power_clears_and_keeps s
    refine ⟨hram, hnmi, hdiag, hprg, hmapper.trans hm, hzeroes, hirq, ?_⟩
    have hread := readVector_other (v := 0xFFFC#16) (s := clearCore s) (by decide) (by decide) hm
    rw [clearCore_draws] at hread
    cases ha : answeredWord s.bus.draws 0xFFFC#16 with
    | ok pc =>
      rw [ha] at hread
      obtain ⟨t, hv⟩ := hread
      obtain ⟨hfault, hregs⟩ := power_of_readVector_ok hv
      exact ⟨hfault, hregs, (powerOutcome_next_iff s).mpr hfault⟩
    | error failure =>
      rw [ha] at hread
      obtain ⟨t, hv⟩ := hread
      obtain ⟨hfault, hregs⟩ := power_of_readVector_fault hv
      exact ⟨_, hfault, rfl, rfl, rfl, rfl, rfl, snapshot_eq_snapshotOf _, hregs, powerOutcome_of_fault hfault,
        step_of_fault hfault⟩

/-- Settles O60: the look at PC answers what the step's fetches get, and the `JMP` fetched changes nothing. -/
theorem selfLoopStaysWhereItIs : Obligations.SelfLoopStaysWhereItIs := by
  intro s
  refine ⟨(runEnd_faulted_iff s).mpr, runEnd_selfLoop_of_peek, fun hf hm hpc htop => ?_, fun hs hend => ?_⟩
  · rw [runEnd_selfLoop_iff_bytesAtPc hf, bytesAtPc_other_iff hm hpc htop]
  · have ⟨hf, _⟩ := hs
    obtain ⟨s1, s2, s3, h0, h1, h2⟩ := reads_of_bytesAtPc ((runEnd_selfLoop_iff_bytesAtPc hf).mp hend)
    have hfetch := fetchesInstr_of_selfLoop h0 h1 h2
    have hreads := hfetch.onlyReads
    have hruns : runsInstruction s3 := runsInstruction_of_onlyReads hreads hs
    have hstep := hfetch.step_eq hs
    rw [exec_jmpAbs_of_pc_eq (congrArg Regs.pc hreads.regs)] at hstep
    refine ⟨_, hstep, hreads.regs, hreads.peek_eq, hruns, fun hstored => ?_⟩
    obtain ⟨hp0, rfl⟩ := readByte_ok_of_stored h0 (by simpa using hstored 0 (by decide))
    obtain ⟨hp1, rfl⟩ := readByte_ok_of_stored h1 (hstored 1 (by decide))
    obtain ⟨hp2, rfl⟩ := readByte_ok_of_stored h2 (hstored 2 (by decide))
    exact ⟨rfl, runEnd_selfLoop_of_peek hf hp0 hp1 hp2⟩

/-- Settles O50: the bytes fetched are the fetches of the instruction they decode to. -/
theorem stepRunsTheDecodedInstruction : Obligations.StepRunsTheDecodedInstruction := by
  intro s s1 bs i hs hfetched hdec
  obtain ⟨op, hhead, hfetch⟩ := fetchesInstr_of_decode hfetched hdec
  have hreads := hfetch.onlyReads
  have hstep := hfetch.step_eq hs
  refine ⟨hreads.regs, hreads.peek_eq, fun t ht => ?_, fun f hf => ?_⟩
  · rw [hstep, ht, hhead, recordDiagnostics, snapshot_eq_snapshotOf]
    rfl
  · rw [hstep, hf, recordDiagnostics]

end Sys2Proof.Claims
end

section
/-! PROOF. The statements about the addressing modes (spec/41_addressing_modes.md): the instructions are the forms with
an allowed mode, the effective address of each mode, the load of an operand, and the two modes of JMP. -/

namespace Sys2Proof

open Sys2Proof.Laws

/-! ### The instruction of a form -/

/-- The offset of a mode's opcode from the base opcode of its mnemonic. It is the same in every mnemonic, but for the
exceptions that `ReadOp.opcode` names; the modes that only one opcode per mnemonic has need no offset (R96). -/
def Mode.offset : Mode → Byte
  | .indX => 0x00#8
  | .zp => 0x04#8
  | .imm | .acc => 0x08#8
  | .abs => 0x0C#8
  | .indY => 0x10#8
  | .zpX | .zpY => 0x14#8
  | .absY => 0x18#8
  | .absX => 0x1C#8
  | .ind | .rel | .impl => 0x00#8

/-- The base opcode of each mnemonic that loads an operand (R96). -/
def ReadOp.base : ReadOp → Byte
  | .ora => 0x01#8
  | .and => 0x21#8
  | .eor => 0x41#8
  | .adc => 0x61#8
  | .lda => 0xA1#8
  | .cmp => 0xC1#8
  | .sbc => 0xE1#8
  | .ldx => 0xA2#8
  | .ldy => 0xA0#8
  | .cpx => 0xE0#8
  | .cpy => 0xC0#8
  | .bit => 0x20#8

/-- The opcode of a mnemonic that loads an operand, in each of its modes: the index registers' Immediate forms stand at
the base, and LDX's Absolute,Y form where the other mnemonics have Absolute,X (R96). -/
def ReadOp.opcode (op : ReadOp) (m : Mode) : Byte :=
  match op, m with
  | .ldx, .imm | .ldy, .imm | .cpx, .imm | .cpy, .imm => op.base
  | .ldx, .absY => op.base + Mode.absX.offset
  | _, _ => op.base + m.offset

/-- The base opcode of each store (R96). -/
def WriteOp.base : WriteOp → Byte
  | .sta => 0x81#8
  | .stx => 0x82#8
  | .sty => 0x80#8

/-- The base opcode of each read-modify-write mnemonic (R96). -/
def ModifyOp.base : ModifyOp → Byte
  | .asl => 0x02#8
  | .rol => 0x22#8
  | .lsr => 0x42#8
  | .ror => 0x62#8
  | .dec => 0xC2#8
  | .inc => 0xE2#8

/-- The opcode of each branch (R96). -/
def BranchOp.opcode : BranchOp → Byte
  | .bpl => 0x10#8
  | .bmi => 0x30#8
  | .bvc => 0x50#8
  | .bvs => 0x70#8
  | .bcc => 0x90#8
  | .bcs => 0xB0#8
  | .bne => 0xD0#8
  | .beq => 0xF0#8

/-- The opcode of each mnemonic that has no operand (R96). -/
def ImpliedOp.opcode : ImpliedOp → Byte
  | .tax => 0xAA#8
  | .tay => 0xA8#8
  | .txa => 0x8A#8
  | .tya => 0x98#8
  | .tsx => 0xBA#8
  | .txs => 0x9A#8
  | .pha => 0x48#8
  | .php => 0x08#8
  | .pla => 0x68#8
  | .plp => 0x28#8
  | .inx => 0xE8#8
  | .iny => 0xC8#8
  | .dex => 0xCA#8
  | .dey => 0x88#8
  | .rts => 0x60#8
  | .rti => 0x40#8
  | .brk => 0x00#8
  | .clc => 0x18#8
  | .cld => 0xD8#8
  | .cli => 0x58#8
  | .clv => 0xB8#8
  | .sec => 0x38#8
  | .sed => 0xF8#8
  | .sei => 0x78#8
  | .nop => 0xEA#8

/-- The opcode that the class, the mnemonic and the mode of a form give. -/
def Form.opcode : Form → Byte
  | .read op src => op.opcode src.mode
  | .write op m => op.base + m.mode.offset
  | .modify op tgt => op.base + tgt.mode.offset
  | .branch op _ => op.opcode
  | .jump (.abs _) => 0x4C#8
  | .jump (.ind _) => 0x6C#8
  | .call _ => 0x20#8
  | .implied op => op.opcode

/-- The opcode table of R97 is a function of the form. -/
theorem opcode_form (i : Instr) : i.form.opcode = i.opcode := by
  cases i <;> rfl

/-- What the opcode and the operand bytes of a form decode to. -/
def Form.instr (f : Form) : Option Instr :=
  (decodeOpcode f.opcode).bind fun sh => fillShape sh f.bytes

/-- The form of an instruction decodes to it. -/
theorem instr_form (i : Instr) : i.form.instr = some i := by
  obtain ⟨sh, hop, hfill⟩ := encodingForm i
  simp only [Form.instr, opcode_form, hop, Option.bind_some, hfill]

/-- A memory operand with its word split into two bytes and joined again, as decoding its bytes gives it. -/
def MemArg.rejoined : MemArg → MemArg
  | .abs w => .abs (joinBytes (highByte w) (lowByte w))
  | .absX w => .absX (joinBytes (highByte w) (lowByte w))
  | .absY w => .absY (joinBytes (highByte w) (lowByte w))
  | m => m

theorem MemArg.rejoined_eq (m : MemArg) : m.rejoined = m := by
  cases m <;> simp only [MemArg.rejoined, joinBytes_high_low]

/-! Once the mode is computed the opcode names no operand, and decoding it is evaluation. -/

theorem map_form_instr_read_mem {op : ReadOp} {m : MemArg} (h : (Form.read op (.mem m)).wellFormed = true) :
    (Form.read op (.mem m)).instr.map Instr.form = some (.read op (.mem m.rejoined)) := by
  cases op <;> cases m <;> cases h <;> simp only [Form.instr, Form.opcode, ReadArg.mode, MemArg.mode] <;> rfl

theorem map_form_instr_write {op : WriteOp} {m : MemArg} (h : (Form.write op m).wellFormed = true) :
    (Form.write op m).instr.map Instr.form = some (.write op m.rejoined) := by
  cases op <;> cases m <;> cases h <;> simp only [Form.instr, Form.opcode, MemArg.mode] <;> rfl

theorem map_form_instr_modify_mem {op : ModifyOp} {m : MemArg} (h : (Form.modify op (.mem m)).wellFormed = true) :
    (Form.modify op (.mem m)).instr.map Instr.form = some (.modify op (.mem m.rejoined)) := by
  cases op <;> cases m <;> cases h <;> simp only [Form.instr, Form.opcode, ModifyArg.mode, MemArg.mode] <;> rfl

/-- A form with an allowed mode decodes to an instruction of that form. -/
theorem map_form_instr {f : Form} (h : f.wellFormed = true) : f.instr.map Instr.form = some f := by
  cases f with
  | read op src =>
    cases src with
    | imm v => cases op <;> cases h <;> simp only [Form.instr, Form.opcode, ReadArg.mode] <;> rfl
    | mem m => rw [map_form_instr_read_mem h, m.rejoined_eq]
  | write op m => rw [map_form_instr_write h, m.rejoined_eq]
  | modify op tgt =>
    cases tgt with
    | acc => cases op <;> cases h <;> rfl
    | mem m => rw [map_form_instr_modify_mem h, m.rejoined_eq]
  | branch op d => cases op <;> simp only [Form.instr, Form.opcode] <;> rfl
  | jump t =>
    cases t with
    | abs w =>
      simp only [Form.instr, Form.opcode]
      exact congrArg (fun x => some (Form.jump (.abs x))) (joinBytes_high_low w)
    | ind w =>
      simp only [Form.instr, Form.opcode]
      exact congrArg (fun x => some (Form.jump (.ind x))) (joinBytes_high_low w)
  | call w =>
    simp only [Form.instr, Form.opcode]
    exact congrArg (fun x => some (Form.call x)) (joinBytes_high_low w)
  | implied op => cases op <;> rfl

end Sys2Proof

namespace Sys2Proof.Machine

open Sys2Proof.Claims

/-! ### Addresses as numbers -/

theorem joinBytes_eq_ofNat (hi lo : Byte) : joinBytes hi lo = BitVec.ofNat 16 (hi.toNat * 256 + lo.toNat) := by
  rw [← toNat_joinBytes, BitVec.ofNat_toNat, BitVec.setWidth_eq]

theorem zeroPage_eq_ofNat (b : Byte) : zeroPage b = BitVec.ofNat 16 b.toNat := by
  rw [zeroPage, joinBytes_eq_ofNat]
  simp

/-- An index register added to an address, mod 2^16 (R146). -/
theorem ofNat_add_setWidth (n : Nat) (b : Byte) :
    BitVec.ofNat 16 n + b.setWidth 16 = BitVec.ofNat 16 (n + b.toNat) := by
  rw [BitVec.ofNat_add, BitVec.ofNat_toNat]

/-! ### The effective address -/

/-- A zero-page pointer is read as a word whose second byte comes from the zero page too (R148, R149). -/
theorem readZeroPageWord_eq_ofNat (p : Byte) (s : State) :
    readZeroPageWord p s = .ok (BitVec.ofNat 16
      ((Memory.read s.bus.ram p.toNat).toNat + 256 * (Memory.read s.bus.ram ((p.toNat + 1) % 256)).toNat)) s := by
  rw [readZeroPageWord_eq, joinBytes_eq_ofNat, BitVec.toNat_add, Nat.add_comm, Nat.mul_comm]
  rfl

theorem effectiveAddress_indX (b : Byte) (s : State) :
    effectiveAddress (.indX b) s = .ok (BitVec.ofNat 16
      ((Memory.read s.bus.ram ((b.toNat + s.regs.x.toNat) % 256)).toNat +
        256 * (Memory.read s.bus.ram ((b.toNat + s.regs.x.toNat + 1) % 256)).toNat)) s := by
  rw [effectiveAddress, readZeroPageWord_eq_ofNat, BitVec.toNat_add, Nat.mod_add_mod]

theorem effectiveAddress_indY (b : Byte) (s : State) :
    effectiveAddress (.indY b) s = .ok (BitVec.ofNat 16
      ((Memory.read s.bus.ram b.toNat).toNat + 256 * (Memory.read s.bus.ram ((b.toNat + 1) % 256)).toNat +
        s.regs.y.toNat)) s := by
  rw [effectiveAddress, readZeroPageWord_eq_ofNat, Res.bind_ok, ofNat_add_setWidth]

/-! ### Loads and jumps -/

/-- A load that answers has only read. -/
theorem onlyReads_of_loadRead {src : ReadArg} {s t : State} {v : Byte} (h : loadRead src s = .ok v t) :
    OnlyReads s t := by
  have hw := loadRead_within src s
  have hk := loadRead_keeps src s
  rw [h] at hw hk
  exact ⟨hw, hk.1, hk.2⟩

/-- The address after `p` within the page of `p`. -/
theorem nextInPage_eq_ofNat (p : Word) :
    joinBytes (highByte p) (lowByte p + 1#8) = BitVec.ofNat 16 (p.toNat / 256 * 256 + (p.toNat + 1) % 256) := by
  rw [joinBytes_eq_ofNat, toNat_highByte, BitVec.toNat_add, toNat_lowByte]
  congr 2
  exact Nat.mod_add_mod _ _ _

/-- The target behind a pointer: its low byte, then its high byte from the page of the pointer (R147). -/
theorem jumpTarget_ind (p : Word) (s : State) :
    jumpTarget (.ind p) s = (readByte .read p s).bind fun tl s1 =>
      (readByte .read (BitVec.ofNat 16 (p.toNat / 256 * 256 + (p.toNat + 1) % 256)) s1).bind fun th s2 =>
        .ok (BitVec.ofNat 16 (th.toNat * 256 + tl.toNat)) s2 := by
  simp only [jumpTarget, nextInPage_eq_ofNat, ← joinBytes_eq_ofNat]

/-- JMP Ind, with PC past its bytes, goes to the target behind its pointer (R260). -/
theorem exec_jmpInd (w : Word) (s : State) :
    exec (.jmpInd w) s =
      complete 0x6C#8 s ((jumpTarget (.ind w) (past s 3)).bind fun ea s1 => .ok () (s1.withPc ea)) :=
  exec_eq (.jmpInd w) s

end Sys2Proof.Machine

namespace Sys2Proof.Claims

open Sys2Proof.Machine

/-! ### The obligations -/

/-- Settles O5: an instruction is decoded from the opcode and the operand bytes of its form. -/
theorem instructionsAreTheAllowedForms : Obligations.InstructionsAreTheAllowedForms := by
  refine ⟨form_wellFormed, fun f hf => ?_, fun i j h => ?_⟩
  · obtain ⟨i, -, hi⟩ := Option.map_eq_some_iff.mp (map_form_instr hf)
    exact ⟨i, hi⟩
  · exact Option.some.inj ((instr_form i).symm.trans (h ▸ instr_form j))

/-- Settles O15, mode by mode. -/
theorem effectiveAddressOfEachMode : Obligations.EffectiveAddressOfEachMode := by
  intro s b w
  refine ⟨?zp, ?zpX, ?zpY, rfl, ?absX, ?absY, effectiveAddress_indX b s, effectiveAddress_indY b s⟩
  case zp => rw [effectiveAddress, zeroPage_eq_ofNat]
  case zpX | zpY => rw [effectiveAddress, zeroPage_eq_ofNat, BitVec.toNat_add]
  case absX | absY => rw [effectiveAddress, ← ofNat_add_setWidth, BitVec.ofNat_toNat, BitVec.setWidth_eq]

/-- Settles O16: resolving the operand is pure, and the load has only read. -/
theorem operandLoadsChangeNothingStored : Obligations.OperandLoadsChangeNothingStored := by
  refine ⟨fun v s => rfl, fun m s ea he => ?_, fun src s t v h => ?_⟩
  · rw [loadRead, he, Res.bind_ok]
  · have hreads := onlyReads_of_loadRead h
    have hw := hreads.within
    exact ⟨hreads.regs, hreads.peek_eq, hw.mapper, hw.pullZeroesSlot, hw.irqLine, hw.nmiPending, hw.fault, hw.diag⟩

/-- Settles O35: JMP decodes from its encoding; JMP Ind ends with the first of its two reads that faults. -/
theorem jumpsWithThePageBug : Obligations.JumpsWithThePageBug := by
  intro w s
  refine ⟨decodeOfEncodeIsIdentity (.jmpAbs w) [] rfl, decodeOfEncodeIsIdentity (.jmpInd w) [] rfl, rfl,
    fun tl s1 th s2 h1 h2 => ?_, fun e s1 h1 => ?_, fun tl s1 e s2 h1 h2 => ?_⟩
  · rw [exec_jmpInd, jumpTarget_ind, h1, Res.bind_ok, h2]
    rfl
  · rw [exec_jmpInd, jumpTarget_ind, h1]
    rfl
  · rw [exec_jmpInd, jumpTarget_ind, h1, Res.bind_ok, h2]
    rfl

end Sys2Proof.Claims
end

section
/-! PROOF. The statements about loads, stores, transfers and stack transfers (spec/42_load_store_transfer.md): the rows of
a statement as the encoded forms of one mnemonic, each class of instruction in the vocabulary of the statements, and what
a store or a read-modify-write leaves. -/

namespace Sys2Proof

open Sys2Proof.Machine Sys2Proof.Claims

/-! ### The rows of the statements -/

/-- The encoding of an instruction decodes to it, with no byte left over. -/
theorem decode_encode (i : Instr) : decode (encode i) = .ok (i, []) := by
  simpa only [List.append_nil] using decodeOfEncodeIsIdentity i [] (form_wellFormed i)

/-- Each row is an instruction, its encoding, and the operand that `form` makes the instruction's form from. -/
def EncodedForms {α : Type} (rows : Byte → Word → List (Instr × List Byte × α)) (form : α → Form) : Prop :=
  ∀ b w i bs x, (i, bs, x) ∈ rows b w → bs = encode i ∧ form x = i.form

/-- Rows written out are compared as lists with the encoder and the table of forms, where both sides evaluate. -/
theorem EncodedForms.of_columns {α : Type} {rows : Byte → Word → List (Instr × List Byte × α)} {form : α → Form}
    (h : ∀ b w, (rows b w).map (fun row => (row.2.1, form row.2.2)) =
      (rows b w).map fun row => (encode row.1, row.1.form)) : EncodedForms rows form :=
  fun b w _ _ _ hrow => Prod.mk.inj (List.map_inj_left.mp (h b w) _ hrow)

/-- The register effect of a form that uses neither an operand, the stack nor a vector; none for the others. -/
def Form.registerEffect : Form → Option (Regs → Regs)
  | .implied op => Machine.registerEffect op
  | _ => none

theorem Form.registerEffect_eq_some {f : Form} {g : Regs → Regs} (h : f.registerEffect = some g) :
    ∃ op, f = .implied op ∧ Machine.registerEffect op = some g := by
  cases f with
  | implied op => exact ⟨op, rfl, h⟩
  | _ => cases h

end Sys2Proof

namespace Sys2Proof.Machine

open Sys2Proof.Claims

/-! ### Flags in the vocabulary of the statements -/

theorem setNZ_eq_nz (p : Flags) (v : Byte) : p.setNZ v = nz p v := rfl

theorem deserialize_eq_flagsOf (b : Byte) : Flags.deserialize b = flagsOf b := rfl

/-! ### Each class of instruction, from PC past its encoding -/

/-- Every meaning is its form, run with PC past the bytes that encode it. -/
theorem exec_eq_past (i : Instr) (s : State) :
    exec i s = complete i.opcode s (runForm i.form (past s (encode i).length)) := by
  rw [exec_eq, length_encode]
  rfl

/-- Rows of forms that load their operand, with the effect of their mnemonic. -/
theorem loadsThrough_of_encodedForms {rows : Byte → Word → List (Instr × List Byte × ReadArg)} {op : ReadOp}
    {effect : Byte → Regs → Regs} (hrows : EncodedForms rows (.read op))
    (heffect : ∀ v r, readEffect op v r = effect v r) : LoadsThrough rows effect := by
  rintro b w s ⟨i, bs, src⟩ hrow
  obtain ⟨rfl, hform⟩ := hrows b w i bs _ hrow
  have hexec := exec_eq_past i s
  rw [← hform, runForm] at hexec
  refine ⟨decode_encode i, fun v s1 hload => ?_, fun e s1 hload => ?_⟩
  · rw [hexec, hload, Res.bind_ok, complete_ok, heffect]
    rfl
  · rw [hexec, hload, Res.bind_fault, complete_fault]
    rfl

/-- The byte that a store writes does not depend on PC. -/
theorem writeValue_past (op : WriteOp) (s : State) (n : Nat) :
    writeValue op (past s n).regs = writeValue op s.regs := by
  cases op <;> rfl

/-- Rows of forms that store the register of their mnemonic. -/
theorem storesThrough_of_encodedForms {rows : Byte → Word → List (Instr × List Byte × MemArg)} {op : WriteOp}
    (hrows : EncodedForms rows (.write op)) : StoresThrough rows (writeValue op) := by
  rintro b w s ⟨i, bs, m⟩ hrow
  obtain ⟨rfl, hform⟩ := hrows b w i bs _ hrow
  obtain ⟨ea, hea⟩ := effectiveAddress_pure m (past s (encode i).length)
  have hexec := exec_eq_past i s
  rw [← hform, runForm, hea, Res.bind_ok, writeValue_past] at hexec
  refine ⟨decode_encode i, ea, hea, fun t hwrite => ?_, fun e t hwrite => ?_⟩
  · rw [hexec, hwrite, complete_ok]
  · rw [hexec, hwrite, complete_fault]
    rfl

/-- What an Implied instruction does, from PC past its one byte. -/
theorem exec_implied {i : Instr} {op : ImpliedOp} (h : i.form = .implied op) (s : State) :
    exec i s = complete i.opcode s (runImplied op (past s 1)) := by
  rw [exec_eq_past, encode, h]
  rfl

/-- Rows of one byte each, with the register effect of their form. -/
theorem changesRegisters_of_columns {rows : List (Instr × Byte × (Regs → Regs))}
    (h : rows.map (fun row => ([row.2.1], some row.2.2)) =
      rows.map fun row => (encode row.1, row.1.form.registerEffect)) : ChangesRegisters rows := by
  rintro ⟨i, b, f⟩ hrow
  obtain ⟨hbytes, heffect⟩ := Prod.mk.inj (List.map_inj_left.mp h _ hrow)
  obtain ⟨op, hform, hf⟩ := Form.registerEffect_eq_some heffect.symm
  refine ⟨hbytes ▸ decode_encode i, fun s => ?_⟩
  rw [exec_implied hform, runImplied_of_registerEffect hf, complete_ok]
  rfl

/-- A push and nothing else, PC past the one byte: PHA and PHP. -/
theorem exec_of_runImplied_push {i : Instr} {op : ImpliedOp} {b : Byte} {s : State} (h : i.form = .implied op)
    (hpush : runImplied op (past s 1) = push8 b (past s 1)) :
    exec i s = .next (onRegs (ramPut (past s 1) (pushBytes [b] s.regs.sp s.bus.ram))
      fun r => { r with sp := r.sp - 1#8 }) := by
  rw [exec_implied h, hpush, push8_eq, complete_ok]
  rfl

/-! ### What a store or a read-modify-write leaves -/

/-- The form is a store to `m` or a read-modify-write on `m`. -/
def StoresTo (f : Form) (m : MemArg) : Prop :=
  (∃ op, f = .write op m) ∨ (∃ op, f = .modify op (.mem m))

/-- No register but the flags differs after a form that stores to its operand, and no flag after a store. -/
theorem RegsAfter.of_storesTo {f : Form} {m : MemArg} {r q : Regs} (h : RegsAfter f r q) (hf : StoresTo f m) :
    q = { r with p := q.p } ∧ ((∃ op, f = .write op m) → q.p = r.p) := by
  obtain ⟨op, rfl⟩ | ⟨op, rfl⟩ := hf
  · cases h
    exact ⟨rfl, fun _ => rfl⟩
  · cases h
    exact ⟨rfl, fun ⟨_, h⟩ => nomatch h⟩

/-- A form that stores to its operand keeps the stored byte of every address that decodes to another target than the
effective address. -/
theorem peek_of_storesTo {f : Form} {m : MemArg} {s t : State} {ea a : Word} (hf : StoresTo f m)
    (hea : effectiveAddress m s = .ok ea s) (h : runForm f s = .ok () t)
    (ha : decodeAddress a ≠ decodeAddress ea) : t.peek a = s.peek a := by
  obtain ⟨op, rfl⟩ | ⟨op, rfl⟩ := hf
  · obtain ⟨ea', hea', hwrite, -⟩ := runForm_write h
    cases hea.symm.trans hea'
    have hpeek := writeByte_peek_other ha (writeValue op s.regs) s
    rwa [hwrite] at hpeek
  · obtain ⟨ea', v, u, x, hea', hread, -, -, hwrite, -, rfl⟩ := runModify_mem h
    cases hea.symm.trans hea'
    have hpeek := writeByte_peek_other ha (modifyEffect op v s.regs.p).1 u
    rw [hwrite] at hpeek
    exact hpeek.trans ((onlyReads_of_readByte hread).peek_eq a)

end Sys2Proof.Machine

namespace Sys2Proof.Claims

open Sys2Proof.Machine

/-! ### The obligations -/

/-- Settles O18: the rows are the forms of LDA, LDX and LDY. -/
theorem loadsSetRegisterAndNZ : Obligations.LoadsSetRegisterAndNZ := by
  refine ⟨loadsThrough_of_encodedForms (op := .lda) (.of_columns fun _ _ => rfl) fun v r => ?_,
    loadsThrough_of_encodedForms (op := .ldx) (.of_columns fun _ _ => rfl) fun v r => ?_,
    loadsThrough_of_encodedForms (op := .ldy) (.of_columns fun _ _ => rfl) fun v r => ?_⟩
  · rw [readEffect, loadA, setNZ_eq_nz]
  · rw [readEffect, loadX, setNZ_eq_nz]
  · rw [readEffect, loadY, setNZ_eq_nz]

/-- Settles O19: the rows are the forms of STA, STX and STY. -/
theorem storesWriteTheirRegister : Obligations.StoresWriteTheirRegister :=
  ⟨storesThrough_of_encodedForms (op := .sta) (.of_columns fun _ _ => rfl),
    storesThrough_of_encodedForms (op := .stx) (.of_columns fun _ _ => rfl),
    storesThrough_of_encodedForms (op := .sty) (.of_columns fun _ _ => rfl)⟩

/-- Settles O47, from the one write of the form and the registers it can leave behind. -/
theorem storesChangeOnlyTheirOperand : Obligations.StoresChangeOnlyTheirOperand := by
  intro i m s t ea hform hea h
  obtain ⟨hregs, hflags⟩ := (exec_regsAfter h).of_storesTo hform
  refine ⟨fun a ha => peek_of_storesTo (s := s.advance i.length) hform hea (runForm_of_exec_next h) ha, ?_⟩
  rw [hregs]
  exact ⟨rfl, rfl, rfl, rfl, hflags⟩

/-- Settles O20: the rows have the bytes and the register effects of their forms. -/
theorem transfersCopyRegisters : Obligations.TransfersCopyRegisters :=
  changesRegisters_of_columns rfl

/-- Settles O21: each of the two is a push. -/
theorem phaAndPhpPushOneByte : Obligations.PhaAndPhpPushOneByte := by
  refine ⟨decode_encode .pha, decode_encode .php, fun s =>
    ⟨exec_of_runImplied_push (op := .pha) rfl rfl, exec_of_runImplied_push (op := .php) rfl ?_⟩⟩
  rw [← serialize_eq_statusByte]
  rfl

/-- Settles O22: each of the two is a pull, then the register or the flags from the byte pulled. -/
theorem plaAndPlpPullOneByte : Obligations.PlaAndPlpPullOneByte := by
  refine ⟨decode_encode .pla, decode_encode .plp, fun s => ⟨?_, ?_⟩⟩
  · rw [exec_implied (op := .pla) rfl, runImplied, pull8_eq, pulled_eq, Res.bind_ok, complete_ok]
    rfl
  · rw [exec_implied (op := .plp) rfl, runImplied, pull8_eq, pulled_eq, Res.bind_ok, complete_ok,
      deserialize_eq_flagsOf]
    rfl

end Sys2Proof.Claims
end

section
/-! PROOF. The statements about addition, subtraction, logic, bit test and compare (spec/43_arithmetic_logic.md): the
arithmetic of `addWithCarry`, each register effect in the vocabulary of the statements, and the D flag beside them. -/

namespace Sys2Proof.Machine

open Sys2Proof.Claims

/-! ### The 9-bit sum, and V as a signed range -/

/-- The sum that `addWithCarry` takes does not overflow its 9 bits. -/
theorem toNat_sum9 (a b : Byte) (c : Bool) :
    (a.setWidth 9 + b.setWidth 9 + (BitVec.ofBool c).setWidth 9).toNat = exactSum a b c := by
  have := a.isLt
  have := b.isLt
  have := c.toNat_lt
  simp only [BitVec.toNat_add, BitVec.toNat_setWidth, BitVec.toNat_ofBool, exactSum]
  omega

/-- The sign test of R200: both operands' signs differ from the result's. -/
theorem msb_xor_and_xor (a b r : Byte) :
    ((a ^^^ r) &&& (b ^^^ r))[7] = (decide (a.msb = b.msb) && decide (r.msb ≠ a.msb)) := by
  have h : ((a ^^^ r) &&& (b ^^^ r))[7] = ((a.msb ^^ r.msb) && (b.msb ^^ r.msb)) := by
    rw [← BitVec.msb_xor, ← BitVec.msb_xor, ← BitVec.msb_and]
    rfl
  rw [h]
  cases a.msb <;> cases b.msb <;> cases r.msb <;> rfl

/-- `addWithCarry` in the exact sum (R200): the low byte, C from bit 8, V from the signs, N and Z from the result. -/
theorem addWithCarry_eq (a b : Byte) (p : Flags) :
    addWithCarry a b p =
      (sumByte a b p.c,
        { nz p (sumByte a b p.c) with
          c := decide (256 ≤ exactSum a b p.c)
          v := decide (a.msb = b.msb) && decide ((sumByte a b p.c).msb ≠ a.msb) }) := by
  have hsum : (a.setWidth 9 + b.setWidth 9 + (BitVec.ofBool p.c).setWidth 9).setWidth 8 = sumByte a b p.c :=
    BitVec.eq_of_toNat_eq (by rw [BitVec.toNat_setWidth, toNat_sum9]; rfl)
  have hcarry : ∀ x : BitVec 9, x[8] = decide (256 ≤ x.toNat) := fun x => x.msb_eq_decide
  simp only [addWithCarry, hsum, hcarry, toNat_sum9, msb_xor_and_xor]
  rfl

theorem sumByte_eq_add (a b : Byte) (c : Bool) : sumByte a b c = a + b + BitVec.ofNat 8 c.toNat := by
  simp only [sumByte, exactSum, BitVec.ofNat_add, BitVec.ofNat_toNat, BitVec.setWidth_eq]

/-- Adding the complement with the carry is subtracting with the borrow (R203). -/
theorem sumByte_not (a m : Byte) (c : Bool) : sumByte a (~~~m) c = differenceByte a m c := by
  rw [sumByte_eq_add, differenceByte, BitVec.not_eq_neg_add]
  cases c with
  | false => rw [Bool.toNat_false, Bool.not_false, Bool.toNat_true]; bv_omega
  | true => rw [Bool.toNat_true, Bool.not_true, Bool.toNat_false]; bv_omega

/-- The sum with the complement carries out exactly when the subtraction does not borrow. -/
theorem exactSum_not_carries_iff (a m : Byte) (c : Bool) :
    256 ≤ exactSum a (~~~m) c ↔ m.toNat + (!c).toNat ≤ a.toNat := by
  have := m.isLt
  rw [exactSum, BitVec.toNat_not]
  cases c <;> simp only [Bool.toNat_false, Bool.toNat_true, Bool.not_false, Bool.not_true] <;> omega

/-- The operands' signs match and differ from the result's exactly when the exact signed sum is no signed byte
(R212). -/
theorem overflow_iff_signed_range (a b : Byte) (c : Bool) :
    (decide (a.msb = b.msb) && decide ((sumByte a b c).msb ≠ a.msb)) = true ↔
      a.toInt + b.toInt + c.toNat < -128 ∨ 127 < a.toInt + b.toInt + c.toNat := by
  have := a.isLt
  have := b.isLt
  have := c.toNat_lt
  have hsum : (sumByte a b c).toNat = (a.toNat + b.toNat + c.toNat) % 256 := rfl
  simp only [BitVec.msb_eq_decide, BitVec.toInt_eq_toNat_cond, hsum, Bool.and_eq_true, decide_eq_true_eq, ne_eq,
    decide_eq_decide]
  omega

/-- The complement of a signed byte. -/
theorem toInt_not_byte (m : Byte) : (~~~m).toInt = -m.toInt - 1 := by
  have := m.isLt
  simp only [BitVec.toInt_eq_toNat_cond, BitVec.toNat_not]
  omega

/-- Subtracting `m` from a sum with `m` restores the other operand exactly when the carries are complementary (R213). -/
theorem differenceByte_sumByte_eq_iff (a m : Byte) (c cs : Bool) :
    differenceByte (sumByte a m c) m cs = a ↔ cs = !c := by
  rw [sumByte_eq_add, differenceByte]
  cases c <;> cases cs <;>
    simp only [Bool.toNat_false, Bool.toNat_true, Bool.not_false, Bool.not_true, reduceCtorEq, iff_true, iff_false] <;>
    bv_omega

/-! ### The register effects in the vocabulary of the statements -/

theorem addToA_eq (m : Byte) (r : Regs) :
    addToA m r =
      { r with
        a := sumByte r.a m r.p.c
        p := { nz r.p (sumByte r.a m r.p.c) with
               c := decide (256 ≤ exactSum r.a m r.p.c)
               v := decide (r.a.msb = m.msb) && decide ((sumByte r.a m r.p.c).msb ≠ r.a.msb) } } := by
  rw [addToA, addWithCarry_eq]

theorem subtractFromA_eq_addToA_not (m : Byte) (r : Regs) : subtractFromA m r = addToA (~~~m) r := rfl

theorem subtractFromA_eq (m : Byte) (r : Regs) :
    subtractFromA m r =
      { r with
        a := differenceByte r.a m r.p.c
        p := { nz r.p (differenceByte r.a m r.p.c) with
               c := decide (m.toNat + (!r.p.c).toNat ≤ r.a.toNat)
               v := decide (r.a.msb ≠ m.msb) && decide ((differenceByte r.a m r.p.c).msb ≠ r.a.msb) } } := by
  have hsigns : decide (r.a.msb = (~~~m).msb) = decide (r.a.msb ≠ m.msb) := by
    rw [BitVec.msb_not]
    cases r.a.msb <;> cases m.msb <;> rfl
  rw [subtractFromA_eq_addToA_not, addToA_eq, sumByte_not, hsigns,
    decide_eq_decide.mpr (exactSum_not_carries_iff _ _ _)]

theorem bitFlags_eq (a m : Byte) (p : Flags) :
    bitFlags a m p = { p with z := decide (a &&& m = 0x00#8), n := m.getLsbD 7, v := m.getLsbD 6 } := rfl

theorem compareFlags_eq_compared (r m : Byte) (p : Flags) : compareFlags r m p = compared r m p := rfl

/-! ### The immediate forms, which always complete -/

theorem onRegs_regs (s : State) (f : Regs → Regs) : (onRegs s f).regs = f s.regs := rfl

theorem exec_adcImm (m : Byte) (s : State) : exec (.adcImm m) s = .next (onRegs (past s 2) (addToA m)) := rfl

theorem exec_sbcImm (m : Byte) (s : State) : exec (.sbcImm m) s = .next (onRegs (past s 2) (subtractFromA m)) := rfl

/-! ### The D flag beside the loads -/

/-- The registers with D set to `d`. -/
def Regs.withDecimal (d : Bool) (r : Regs) : Regs := { r with p := { r.p with d := d } }

theorem advance_withDecimal (s : State) (n : Nat) (d : Bool) :
    (onRegs s (Regs.withDecimal d)).advance n = (s.advance n).withRegs ((s.advance n).regs.withDecimal d) := rfl

/-- No instruction that loads its operand reads D or writes it. -/
theorem readEffect_withDecimal (op : ReadOp) (v : Byte) (d : Bool) (r : Regs) :
    readEffect op v (r.withDecimal d) = (readEffect op v r).withDecimal d := by
  cases op <;> rfl

/-- What a read answers does not depend on the registers. -/
theorem readByte_ok_withRegs {k : AccessKind} {a : Word} {s t : State} {v : Byte} (h : readByte k a s = .ok v t)
    (r : Regs) : readByte k a (s.withRegs r) = .ok v (t.withRegs r) := by
  unfold readByte at h ⊢
  split at h
  · cases h; rfl
  · cases h; rfl
  · cases h; rfl
  · cases h
  · unfold mapperRead at h ⊢
    rw [State.withRegs_bus]
    split at h
    · cases h; rfl
    · split at h
      · cases h; rfl
      · cases h

/-- An effective address depends on the registers through X and Y only. -/
theorem effectiveAddress_withRegs {m : MemArg} {s : State} {ea : Word} {r : Regs} (hx : r.x = s.regs.x)
    (hy : r.y = s.regs.y) (h : effectiveAddress m s = .ok ea s) :
    effectiveAddress m (s.withRegs r) = .ok ea (s.withRegs r) := by
  cases m <;>
    simp only [effectiveAddress, readZeroPageWord_eq, Res.bind_ok, State.withRegs_regs, State.withRegs_bus, hx, hy,
      Res.ok.injEq, and_true] at h ⊢ <;>
    exact h

/-- What a load answers depends on the registers through X and Y only. -/
theorem loadRead_ok_withRegs {src : ReadArg} {s t : State} {v : Byte} {r : Regs} (hx : r.x = s.regs.x)
    (hy : r.y = s.regs.y) (h : loadRead src s = .ok v t) :
    loadRead src (s.withRegs r) = .ok v (t.withRegs r) := by
  cases src with
  | imm b => cases h; rfl
  | mem m =>
    obtain ⟨ea, hea⟩ := effectiveAddress_pure m s
    rw [loadRead, hea, Res.bind_ok] at h
    rw [loadRead, effectiveAddress_withRegs hx hy hea, Res.bind_ok]
    exact readByte_ok_withRegs h r

/-- An instruction that loads its operand and completes does the same with D set to anything, and keeps that D. -/
theorem exec_read_withDecimal {i : Instr} {op : ReadOp} {src : ReadArg} (hform : i.form = .read op src) {s t : State}
    (h : exec i s = .next t) (d : Bool) :
    exec i (onRegs s (Regs.withDecimal d)) = .next (onRegs t (Regs.withDecimal d)) := by
  have hrun := runForm_of_exec_next h
  rw [hform] at hrun
  obtain ⟨v, u, hload, rfl, -⟩ := runForm_read hrun
  have hload' := loadRead_ok_withRegs (r := (s.advance i.length).regs.withDecimal d) rfl rfl hload
  rw [exec_eq, hform, runForm, advance_withDecimal, hload', Res.bind_ok, complete_ok, State.withRegs_regs,
    readEffect_withDecimal]
  rfl

end Sys2Proof.Machine

namespace Sys2Proof.Claims

open Sys2Proof.Machine

theorem adcRows_encodedForms : EncodedForms adcRows (.read .adc) := .of_columns fun _ _ => rfl

theorem sbcRows_encodedForms : EncodedForms sbcRows (.read .sbc) := .of_columns fun _ _ => rfl

/-! ### The obligations -/

/-- Settles O23: the rows are the forms of ADC, whose effect is the exact sum's. -/
theorem adcAddsWithCarry : Obligations.AdcAddsWithCarry :=
  loadsThrough_of_encodedForms adcRows_encodedForms addToA_eq

/-- Settles O24: the rows are the forms of SBC, which adds the complement. -/
theorem sbcSubtractsWithBorrow : Obligations.SbcSubtractsWithBorrow :=
  loadsThrough_of_encodedForms sbcRows_encodedForms subtractFromA_eq

/-- Settles O25: the rows are the forms of AND, ORA and EOR. -/
theorem logicCombinesIntoA : Obligations.LogicCombinesIntoA := by
  refine ⟨loadsThrough_of_encodedForms (op := .and) (.of_columns fun _ _ => rfl) fun m r => ?_,
    loadsThrough_of_encodedForms (op := .ora) (.of_columns fun _ _ => rfl) fun m r => ?_,
    loadsThrough_of_encodedForms (op := .eor) (.of_columns fun _ _ => rfl) fun m r => ?_⟩
  · rw [readEffect, andIntoA, setNZ_eq_nz]
  · rw [readEffect, orIntoA, setNZ_eq_nz]
  · rw [readEffect, xorIntoA, setNZ_eq_nz]

/-- Settles O26: the rows are the forms of BIT. -/
theorem bitTestsTheOperand : Obligations.BitTestsTheOperand :=
  loadsThrough_of_encodedForms (op := .bit) (.of_columns fun _ _ => rfl) fun m r => by
    rw [readEffect, testBits, bitFlags_eq]

/-- Settles O27: the rows are the forms of CMP, CPX and CPY. -/
theorem comparesSetFlagsOnly : Obligations.ComparesSetFlagsOnly := by
  refine ⟨loadsThrough_of_encodedForms (op := .cmp) (.of_columns fun _ _ => rfl) fun m r => ?_,
    loadsThrough_of_encodedForms (op := .cpx) (.of_columns fun _ _ => rfl) fun m r => ?_,
    loadsThrough_of_encodedForms (op := .cpy) (.of_columns fun _ _ => rfl) fun m r => ?_⟩
  · rw [readEffect, compareA, compareFlags_eq_compared]
  · rw [readEffect, compareX, compareFlags_eq_compared]
  · rw [readEffect, compareY, compareFlags_eq_compared]

/-- Settles O28: SBC adds the complement, whose signed value is `-m - 1`. -/
theorem overflowIsTheSignedRange : Obligations.OverflowIsTheSignedRange := by
  intro m s
  refine ⟨_, _, exec_adcImm m s, exec_sbcImm m s, ?_, ?_⟩
  · rw [onRegs_regs, addToA_eq]
    exact overflow_iff_signed_range s.regs.a m s.regs.p.c
  · have hborrow : ((!s.regs.p.c).toNat : Int) = 1 - s.regs.p.c.toNat := by
      cases s.regs.p.c <;> rfl
    have hrange := overflow_iff_signed_range s.regs.a (~~~m) s.regs.p.c
    rw [toInt_not_byte] at hrange
    rw [onRegs_regs, subtractFromA_eq_addToA_not, addToA_eq, hborrow]
    exact hrange.trans (by omega)

/-- Settles O29: SBC subtracts `m` and its borrow from the byte that ADC left. -/
theorem sbcUndoesAdcIffCarryFlipped : Obligations.SbcUndoesAdcIffCarryFlipped := by
  intro m s cs
  refine ⟨_, _, exec_adcImm m s, exec_sbcImm m _, ?_⟩
  rw [onRegs_regs, subtractFromA_eq]
  change differenceByte (addToA m (past s 2).regs).a m cs = s.regs.a ↔ _
  rw [addToA_eq]
  exact differenceByte_sumByte_eq_iff s.regs.a m s.regs.p.c cs

/-- Settles O30: every form of ADC and SBC loads its operand, and no such form reads or writes D. -/
theorem decimalFlagIsInert : Obligations.DecimalFlagIsInert := by
  rintro b w s t d ⟨i, bs, src⟩ hrow h
  obtain hrow | hrow := List.mem_append.mp hrow
  · exact exec_read_withDecimal (adcRows_encodedForms b w i bs src hrow).2.symm h d
  · exact exec_read_withDecimal (sbcRows_encodedForms b w i bs src hrow).2.symm h d

end Sys2Proof.Claims
end

section
/-! PROOF. The statements about shifts, rotates, increments and decrements (spec/44_shift_incdec.md): each operation in the
arithmetic of the statements, and rows of read-modify-write forms. -/

namespace Sys2Proof.Machine

open Sys2Proof.Claims

/-! ### The result bytes as numbers -/

theorem shiftLeft_one_eq (v : Byte) : v <<< 1 = BitVec.ofNat 8 (2 * v.toNat) := by
  apply BitVec.eq_of_toNat_eq
  rw [BitVec.toNat_shiftLeft, BitVec.toNat_ofNat, Nat.shiftLeft_eq, pow_one, Nat.mul_comm]

theorem shiftRight_one_eq (v : Byte) : v >>> 1 = BitVec.ofNat 8 (v.toNat / 2) := by
  have := v.isLt
  apply BitVec.eq_of_toNat_eq
  rw [BitVec.toNat_ushiftRight, BitVec.toNat_ofNat, Nat.shiftRight_eq_div_pow, pow_one]
  omega

/-- The carry enters the bit that the shift left vacates, so that `or` is a sum. -/
theorem shiftLeft_or_carry_eq (v : Byte) (c : Bool) :
    (v <<< 1 ||| (BitVec.ofBool c).setWidth 8) = BitVec.ofNat 8 (2 * v.toNat + c.toNat) := by
  have hc := c.toNat_lt
  have hhigh : 2 * v.toNat % 2 ^ 8 = 2 ^ 1 * (v.toNat % 128) := by omega
  have hlow : ((BitVec.ofBool c).setWidth 8 : Byte).toNat = c.toNat := by
    cases c <;> rfl
  apply BitVec.eq_of_toNat_eq
  rw [shiftLeft_one_eq, BitVec.toNat_or, BitVec.toNat_ofNat, BitVec.toNat_ofNat, hhigh, hlow,
    ← Nat.two_pow_add_eq_or_of_lt hc]
  omega

/-- The carry enters the bit that the shift right vacates, so that `or` is a sum. -/
theorem shiftRight_or_carry_eq (v : Byte) (c : Bool) :
    (v >>> 1 ||| (BitVec.ofBool c).setWidth 8 <<< 7) = BitVec.ofNat 8 (v.toNat / 2 + 128 * c.toNat) := by
  have hv := v.isLt
  have hhigh : ((BitVec.ofBool c).setWidth 8 <<< 7 : Byte).toNat = 2 ^ 7 * c.toNat := by
    cases c <;> rfl
  have hlow : v.toNat / 2 < 2 ^ 7 := by omega
  apply BitVec.eq_of_toNat_eq
  rw [shiftRight_one_eq, BitVec.toNat_or, hhigh, Nat.or_comm, BitVec.toNat_ofNat, BitVec.toNat_ofNat,
    Nat.mod_eq_of_lt (by omega : v.toNat / 2 < 2 ^ 8), ← Nat.two_pow_add_eq_or_of_lt hlow]
  omega

theorem byte_add_one_eq (v : Byte) : v + 1#8 = BitVec.ofNat 8 (v.toNat + 1) := by
  bv_omega

theorem byte_sub_one_eq (v : Byte) : v - 1#8 = BitVec.ofNat 8 (v.toNat + 255) := by
  bv_omega

/-! ### The operations in the vocabulary of the statements -/

theorem shiftLeft_eq (v : Byte) (p : Flags) :
    shiftLeft v p =
      (BitVec.ofNat 8 (2 * v.toNat), nz { p with c := v.msb } (BitVec.ofNat 8 (2 * v.toNat))) := by
  rw [shiftLeft, shiftLeft_one_eq, setNZ_eq_nz]
  rfl

theorem shiftRight_eq (v : Byte) (p : Flags) :
    shiftRight v p =
      (BitVec.ofNat 8 (v.toNat / 2), nz { p with c := v.getLsbD 0 } (BitVec.ofNat 8 (v.toNat / 2))) := by
  rw [shiftRight, shiftRight_one_eq, setNZ_eq_nz]
  rfl

theorem rotateLeft_eq (v : Byte) (p : Flags) :
    rotateLeft v p =
      (BitVec.ofNat 8 (2 * v.toNat + p.c.toNat),
        nz { p with c := v.msb } (BitVec.ofNat 8 (2 * v.toNat + p.c.toNat))) := by
  rw [rotateLeft, shiftLeft_or_carry_eq, setNZ_eq_nz]
  rfl

theorem rotateRight_eq (v : Byte) (p : Flags) :
    rotateRight v p =
      (BitVec.ofNat 8 (v.toNat / 2 + 128 * p.c.toNat),
        nz { p with c := v.getLsbD 0 } (BitVec.ofNat 8 (v.toNat / 2 + 128 * p.c.toNat))) := by
  rw [rotateRight, shiftRight_or_carry_eq, setNZ_eq_nz]
  rfl

theorem increment_eq (v : Byte) (p : Flags) :
    increment v p = (BitVec.ofNat 8 (v.toNat + 1), nz p (BitVec.ofNat 8 (v.toNat + 1))) := by
  rw [increment, byte_add_one_eq, setNZ_eq_nz]

theorem decrement_eq (v : Byte) (p : Flags) :
    decrement v p = (BitVec.ofNat 8 (v.toNat + 255), nz p (BitVec.ofNat 8 (v.toNat + 255))) := by
  rw [decrement, byte_sub_one_eq, setNZ_eq_nz]

/-! ### Read-modify-write forms -/

/-- Once the operand is read, what is left of a read-modify-write is its one write, then the flags. -/
theorem runModify_mem_of_read {f : Byte → Flags → Byte × Flags} {m : MemArg} {s u : State} {ea : Word} {v : Byte}
    (hea : effectiveAddress m s = .ok ea s) (hread : readByte .read ea s = .ok v u) :
    runModify f (.mem m) s =
      (writeByte ea (f v s.regs.p).1 u).bind fun _ t => .ok () (t.withFlags (f v s.regs.p).2) := by
  simp only [runModify, hea, hread, Res.bind_ok, (onlyReads_of_readByte hread).regs]

theorem runModify_mem_of_read_fault {f : Byte → Flags → Byte × Flags} {m : MemArg} {s u : State} {ea : Word}
    {e : Raised} (hea : effectiveAddress m s = .ok ea s) (hread : readByte .read ea s = .fault e u) :
    runModify f (.mem m) s = .fault e u := by
  rw [runModify, hea, Res.bind_ok, hread, Res.bind_fault]

/-- A read and then a write that both answer change no register. -/
theorem regs_of_read_write {s u t : State} {a : Word} {v w : Byte} (hread : readByte .read a s = .ok v u)
    (hwrite : writeByte a w u = .ok () t) : t.regs = s.regs := by
  have hregs := writeByte_keeps_regs a w u
  rw [hwrite] at hregs
  exact hregs.trans (onlyReads_of_readByte hread).regs

theorem past_flags (s : State) (n : Nat) : (past s n).regs.p = s.regs.p := rfl

/-- Rows of forms that modify their operand, with the result and the flags of their mnemonic. -/
theorem modifiesThrough_of_encodedForms {rows : Byte → Word → List (Instr × List Byte × ModifyArg)} {op : ModifyOp}
    {result : Byte → Bool → Byte} {flags : Byte → Flags → Flags} (hrows : EncodedForms rows (.modify op))
    (heffect : ∀ v p, modifyEffect op v p = (result v p.c, flags v p)) : ModifiesThrough rows result flags := by
  rintro b w s ⟨i, bs, tgt⟩ hrow
  obtain ⟨rfl, hform⟩ := hrows b w i bs _ hrow
  have hexec := exec_eq_past i s
  rw [← hform, runForm] at hexec
  refine ⟨decode_encode i, ?_, ?_⟩
  · rintro rfl
    have hlength : (encode i).length = 1 := by rw [length_encode, Instr.length, ← hform]; rfl
    rw [hexec, hlength, runModify, heffect, complete_ok]
    rfl
  · rintro m rfl
    obtain ⟨ea, hea⟩ := effectiveAddress_pure m (past s (encode i).length)
    refine ⟨ea, hea, fun v u t hread hwrite => ?_, fun e t hread => ?_, fun v u hread => ?_⟩
    · have hflags := congrArg Regs.p (regs_of_read_write hread hwrite)
      rw [past_flags] at hflags
      rw [hexec, runModify_mem_of_read hea hread, heffect, past_flags, hwrite, Res.bind_ok, complete_ok, ← hflags]
      rfl
    · rw [hexec, runModify_mem_of_read_fault hea hread, complete_fault]
      rfl
    · rw [hexec, runModify_mem_of_read hea hread, heffect, past_flags]
      cases writeByte ea (result v s.regs.p.c) u with
      | ok _ t => exact .inl ⟨t, rfl⟩
      | fault e t => exact .inr ⟨e, t, rfl, rfl⟩

end Sys2Proof.Machine

namespace Sys2Proof.Claims

open Sys2Proof.Machine

/-! ### The obligations -/

/-- Settles O31: the rows are the forms of ASL, LSR, ROL and ROR. -/
theorem shiftsAndRotates : Obligations.ShiftsAndRotates :=
  ⟨modifiesThrough_of_encodedForms (op := .asl) (.of_columns fun _ _ => rfl) shiftLeft_eq,
    modifiesThrough_of_encodedForms (op := .lsr) (.of_columns fun _ _ => rfl) shiftRight_eq,
    modifiesThrough_of_encodedForms (op := .rol) (.of_columns fun _ _ => rfl) rotateLeft_eq,
    modifiesThrough_of_encodedForms (op := .ror) (.of_columns fun _ _ => rfl) rotateRight_eq⟩

/-- Settles O32: the rows are the forms of INC and DEC. -/
theorem incAndDecMemory : Obligations.IncAndDecMemory :=
  ⟨modifiesThrough_of_encodedForms (op := .inc) (.of_columns fun _ _ => rfl) increment_eq,
    modifiesThrough_of_encodedForms (op := .dec) (.of_columns fun _ _ => rfl) decrement_eq⟩

/-- Settles O33: the rows are the encodings and the register effects of INX, INY, DEX and DEY. -/
theorem incAndDecRegisters : Obligations.IncAndDecRegisters := changesRegisters_of_columns rfl

end Sys2Proof.Claims
end

section
/-! PROOF. The statements about control flow (spec/45_control_flow.md): the branches, and JSR, RTS, RTI and BRK in closed
form, the pushes and pulls in the vocabulary of the statements. -/

namespace Sys2Proof

/-- The offset of a branch, and whether it is taken with the flags `p`; none for the other forms. -/
def Form.asBranch (p : Machine.Flags) : Form → Option (Byte × Bool)
  | .branch op d => some (d, Machine.branchCondition op p)
  | _ => none

theorem Form.asBranch_eq_some {f : Form} {p : Machine.Flags} {d : Byte} {taken : Bool}
    (h : f.asBranch p = some (d, taken)) : ∃ op, f = .branch op d ∧ Machine.branchCondition op p = taken := by
  cases f with
  | branch op e =>
    cases h
    exact ⟨op, rfl, rfl⟩
  | _ => cases h

end Sys2Proof

namespace Sys2Proof.Machine

open Sys2Proof.Claims

theorem past_bus (s : State) (n : Nat) : (past s n).bus = s.bus := rfl

/-! ### Branches -/

/-- The target of a branch from PC past its two bytes, as a signed sum (R150, R250). -/
theorem branchTarget_past (d : Byte) (s : State) :
    branchTarget d (past s 2) = BitVec.ofInt 16 (s.regs.pc.toNat + 2 + d.toInt) := by
  rw [BitVec.ofInt_add, BitVec.ofInt_add, BitVec.ofInt_natCast, BitVec.ofNat_toNat, BitVec.setWidth_eq]
  rfl

/-- What a branch does: PC moves, and nothing else. -/
theorem exec_branch {i : Instr} {op : BranchOp} {d : Byte} (h : i.form = .branch op d) (s : State) :
    exec i s = .next (onRegs s fun r =>
      { r with
        pc := if branchCondition op s.regs.p then BitVec.ofInt 16 (r.pc.toNat + 2 + d.toInt) else r.pc + 2#16 }) := by
  have hlength : (encode i).length = 2 := by rw [length_encode, Instr.length, h]; rfl
  rw [exec_eq_past, hlength, h, runForm, complete_ok, branchTarget_past, past_flags]
  cases branchCondition op s.regs.p <;> rfl

/-- Rows of branches with offset `d`, each with its opcode and whether it is taken with the flags of `s`. -/
theorem branches_of_columns {rows : List (Instr × Byte × Bool)} {d : Byte} {s : State}
    (h : rows.map (fun row => ([row.2.1, d], some (d, row.2.2))) =
      rows.map fun row => (encode row.1, row.1.form.asBranch s.regs.p)) :
    ∀ row ∈ rows, decode [row.2.1, d] = .ok (row.1, []) ∧
      exec row.1 s = .next (onRegs s fun r =>
        { r with pc := if row.2.2 then BitVec.ofInt 16 (r.pc.toNat + 2 + d.toInt) else r.pc + 2#16 }) := by
  rintro ⟨i, b, taken⟩ hrow
  obtain ⟨hbytes, hbranch⟩ := Prod.mk.inj (List.map_inj_left.mp h _ hrow)
  obtain ⟨op, hform, rfl⟩ := Form.asBranch_eq_some hbranch.symm
  exact ⟨hbytes ▸ decode_encode i, exec_branch hform s⟩

/-! ### Pushed bytes -/

/-- Pushes that do not wrap onto their own slots leave each byte in its slot. -/
theorem stackByte_pushBytes {bs : List Byte} {sp : Byte} {m : Memory} {k : Nat}
    (hm : Memory.wf Memory.ramSize m = true) (hlen : bs.length ≤ 256) (hk : k < bs.length) :
    stackByte (pushBytes bs sp m) (sp - BitVec.ofNat 8 k) = bs[k] := by
  induction bs generalizing sp m k with
  | nil => exact absurd hk (Nat.not_lt_zero k)
  | cons b bs ih =>
    rw [List.length_cons] at hlen hk
    cases k with
    | zero =>
      have hother : ∀ j, j < bs.length → 0x0100 + sp.toNat ≠ 0x0100 + (sp - 1#8 - BitVec.ofNat 8 j).toNat := by
        intro j hj heq
        bv_omega
      rw [BitVec.sub_zero, stackByte, pushBytes, read_pushBytes_other hother]
      exact Memory.read_write_same_of_wf _ _ hm
    | succ k =>
      have hslot : sp - BitVec.ofNat 8 (k + 1) = sp - 1#8 - BitVec.ofNat 8 k := by
        rw [BitVec.ofNat_add]
        bv_omega
      rw [hslot, pushBytes]
      exact ih (Memory.wf_write b hm (stackIndex_lt sp)) (by omega) (by omega)

/-- A word pushed high byte first stands in its two slots, whatever is pushed after it. -/
theorem joinBytes_stackByte_pushBytes {w : Word} {bs : List Byte} {sp : Byte} {m : Memory}
    (hm : Memory.wf Memory.ramSize m = true) (hlen : bs.length ≤ 254) :
    joinBytes (stackByte (pushBytes (highByte w :: lowByte w :: bs) sp m) sp)
      (stackByte (pushBytes (highByte w :: lowByte w :: bs) sp m) (sp - 1#8)) = w := by
  have hbound : (highByte w :: lowByte w :: bs).length ≤ 256 := Nat.add_le_add_right hlen 2
  have hhi := stackByte_pushBytes (sp := sp) (k := 0) hm hbound (Nat.zero_lt_succ _)
  have hlo := stackByte_pushBytes (sp := sp) (k := 1) hm hbound (Nat.succ_lt_succ (Nat.zero_lt_succ _))
  rw [BitVec.sub_zero] at hhi
  rw [hhi, hlo]
  exact joinBytes_high_low w

/-- The last of the three pushes of an interrupt stands in the third slot. -/
theorem stackByte_pushBytes_third {hi lo status sp : Byte} {m : Memory} (hm : Memory.wf Memory.ramSize m = true) :
    stackByte (pushBytes [hi, lo, status] sp m) (sp - 2#8) = status :=
  stackByte_pushBytes (bs := [hi, lo, status]) (k := 2) hm (Nat.le_add_left 3 253) (Nat.lt_succ_self 2)

/-- The status byte holds every flag (R31, R32). -/
theorem flagsOf_statusByte (p : Flags) : flagsOf (statusByte p) = p := by
  obtain ⟨n, v, b, d, i, z, c⟩ := p
  revert n v b d i z c
  decide

/-! ### Subroutines -/

/-- All that JSR does (R262). -/
theorem exec_jsr (w : Word) (s : State) :
    exec (.jsr w) s = .next (onRegs (ramPut s
      (pushBytes [highByte (s.regs.pc + 2#16), lowByte (s.regs.pc + 2#16)] s.regs.sp s.bus.ram))
      fun r => { r with sp := r.sp - 2#8, pc := w }) := by
  have hret : (past s 3).regs.pc - 1#16 = s.regs.pc + 2#16 := by
    change s.regs.pc + 3#16 - 1#16 = s.regs.pc + 2#16
    bv_omega
  have ⟨_, hpush⟩ := pushesWrapAndNeverFault (past s 3) 0#8 (s.regs.pc + 2#16)
  rw [exec_eq_past]
  change complete 0x20#8 s ((push16 ((past s 3).regs.pc - 1#16) (past s 3)).bind _) = _
  rw [hret, hpush, Res.bind_ok, complete_ok]
  rfl

/-- All that RTS does (R263). -/
theorem exec_rts (s : State) :
    exec .rts s = .next (onRegs (ramPut s (pullBytes s.pullZeroesSlot 2 s.regs.sp s.bus.ram)) fun r =>
      { r with
        sp := r.sp + 2#8
        pc := joinBytes (stackByte s.bus.ram (r.sp + 2#8)) (stackByte s.bus.ram (r.sp + 1#8)) + 1#16 }) := by
  have ⟨_, hpull⟩ := pullsWrapAndNeverFault (past s 1)
  rw [exec_implied (op := .rts) rfl, runImplied, hpull, Res.bind_ok, complete_ok]
  rfl

/-! ### The two answers of another mapper to a vector's reads -/

theorem answeredWord_of_low_error {n d : Nat} {v : Word} (hlo : Config.otherMapperRead n v = .error d) :
    answeredWord n v = .error (v, d) := by
  rw [answeredWord, hlo]

theorem answeredWord_of_high_error {n d : Nat} {v : Word} {lo : Byte} (hlo : Config.otherMapperRead n v = .ok lo)
    (hhi : Config.otherMapperRead (n + 1) (v + 1#16) = .error d) : answeredWord n v = .error (v + 1#16, d) := by
  simp only [answeredWord, hlo, hhi]

theorem answeredWord_of_ok {n : Nat} {v : Word} {lo hi : Byte} (hlo : Config.otherMapperRead n v = .ok lo)
    (hhi : Config.otherMapperRead (n + 1) (v + 1#16) = .ok hi) : answeredWord n v = .ok (joinBytes hi lo) := by
  simp only [answeredWord, hlo, hhi]

/-! ### Interrupts -/

/-- One pull leaves the byte of every slot but the vacated one. -/
theorem stackByte_pullBytes_one {z : Bool} {sp q : Byte} {m : Memory} (h : q ≠ sp + 1#8) :
    stackByte (pullBytes z 1 sp m) q = stackByte m q := by
  cases z with
  | false => rfl
  | true => exact Memory.read_write_other _ _ fun heq => h (stackIndex_inj heq)

/-- All that returning from an interrupt does, in the vocabulary of the statements: the pull of the status leaves the two
slots of the word (R264). -/
theorem returnFromInterrupt_eq_pullBytes (s : State) :
    returnFromInterrupt s = .ok () (onRegs (ramPut s (pullBytes s.pullZeroesSlot 3 s.regs.sp s.bus.ram)) fun r =>
      { r with
        sp := r.sp + 3#8
        p := flagsOf (stackByte s.bus.ram (r.sp + 1#8))
        pc := joinBytes (stackByte s.bus.ram (r.sp + 3#8)) (stackByte s.bus.ram (r.sp + 2#8)) }) := by
  have h2 : s.regs.sp + 1#8 + 1#8 = s.regs.sp + 2#8 := by bv_omega
  have h3 : s.regs.sp + 1#8 + 2#8 = s.regs.sp + 3#8 := by bv_omega
  have hlo : s.regs.sp + 2#8 ≠ s.regs.sp + 1#8 := by bv_omega
  have hhi : s.regs.sp + 3#8 ≠ s.regs.sp + 1#8 := by bv_omega
  obtain ⟨hstatus, -⟩ := pullsWrapAndNeverFault s
  rw [returnFromInterrupt, hstatus, Res.bind_ok, deserialize_eq_flagsOf, (pullsWrapAndNeverFault _).2, Res.bind_ok]
  simp only [onRegs, ramPut, State.withFlags, State.withPc, h2, h3, stackByte_pullBytes_one hlo,
    stackByte_pullBytes_one hhi]
  rfl

/-- All that RTI does (R264). -/
theorem exec_rti (s : State) :
    exec .rti s = .next (onRegs (ramPut s (pullBytes s.pullZeroesSlot 3 s.regs.sp s.bus.ram)) fun r =>
      { r with
        sp := r.sp + 3#8
        p := flagsOf (stackByte s.bus.ram (r.sp + 1#8))
        pc := joinBytes (stackByte s.bus.ram (r.sp + 3#8)) (stackByte s.bus.ram (r.sp + 2#8)) }) := by
  rw [exec_implied (op := .rti) rfl, runImplied, returnFromInterrupt_eq_pullBytes, complete_ok]
  rfl

/-- The three pushes of an interrupt change work RAM and SP alone. -/
theorem pushedThree_eq (s : State) (ret : Word) (status : Byte) :
    pushedThree s ret status = onRegs (ramPut s (pushBytes [highByte ret, lowByte ret, status] s.regs.sp s.bus.ram))
      fun r => { r with sp := r.sp - 3#8 } := by
  rw [← pushedThree_ram]
  rfl

theorem pushedThree_draws (s : State) (ret : Word) (status : Byte) :
    (pushedThree s ret status).bus.draws = s.bus.draws := rfl

/-- Taking an interrupt with another mapper: the pushes are done, and the two answers to the vector's reads give PC, or
the failing one faults (R265, R303). -/
theorem takeInterrupt_other {v : Word} (ret : Word) (status : Byte) {s : State} (h : 0x8000 ≤ v.toNat)
    (h1 : 0x8000 ≤ (v + 1#16).toNat) (hm : s.bus.mapper = .other) :
    match answeredWord s.bus.draws v with
    | .ok pc => ∃ t, takeInterrupt v ret status s = .ok () t ∧
        t.bus.ram = pushBytes [highByte ret, lowByte ret, status] s.regs.sp s.bus.ram ∧
        t.regs = { s.regs with sp := s.regs.sp - 3#8, p := { s.regs.p with i := true }, pc := pc }
    | .error (a, d) => ∃ t, takeInterrupt v ret status s = .fault ⟨.mapperFault, .read, a, some d⟩ t ∧
        t.bus.ram = pushBytes [highByte ret, lowByte ret, status] s.regs.sp s.bus.ram := by
  have hread := readVector_other (s := (pushedThree s ret status).withFlags { s.regs.p with i := true }) h h1 hm
  have hkeeps := readVector_keeps v ((pushedThree s ret status).withFlags { s.regs.p with i := true })
  rw [State.withFlags_bus, pushedThree_draws] at hread
  rw [State.withFlags_bus, pushedThree_ram] at hkeeps
  rw [takeInterrupt_eq]
  cases ha : answeredWord s.bus.draws v with
  | ok pc =>
    rw [ha] at hread
    obtain ⟨t, ht⟩ := hread
    rw [ht] at hkeeps ⊢
    obtain ⟨hregs, hram⟩ := hkeeps
    exact ⟨_, rfl, hram, congrArg (fun r : Regs => { r with pc := pc }) hregs⟩
  | error failure =>
    rw [ha] at hread
    obtain ⟨t, ht⟩ := hread
    rw [ht] at hkeeps ⊢
    exact ⟨t, rfl, hkeeps.2⟩

/-- What BRK does before it completes: B is set, and the status pushed has it set (R265). -/
theorem exec_brk (s : State) :
    exec .brk s = complete 0x00#8 s (takeInterrupt 0xFFFE#16 (s.regs.pc + 2#16)
      (statusByte { s.regs.p with b := true }) ((past s 1).withFlags { s.regs.p with b := true })) := by
  have hret : (past s 1).regs.pc + 1#16 = s.regs.pc + 2#16 := by
    change s.regs.pc + 1#16 + 1#16 = s.regs.pc + 2#16
    bv_omega
  rw [exec_implied (op := .brk) rfl, runImplied, ← serialize_eq_statusByte, ← hret]
  rfl

/-- All that BRK does with the reference mapper (R265). -/
theorem exec_brk_reference {s : State} (hm : s.bus.mapper = .reference) :
    exec .brk s = .next (onRegs (ramPut s (pushBytes
      [highByte (s.regs.pc + 2#16), lowByte (s.regs.pc + 2#16), statusByte { s.regs.p with b := true }]
      s.regs.sp s.bus.ram)) fun r =>
      { r with
        sp := r.sp - 3#8
        p := { r.p with b := true, i := true }
        pc := joinBytes (Memory.read s.bus.prg 0x7FFF) (Memory.read s.bus.prg 0x7FFE) }) := by
  rw [exec_brk, takeInterrupt_reference (v := 0xFFFE#16) _ _ (by decide) (by decide) (by exact hm), complete_ok,
    pushedThree_eq]
  rfl

/-- What BRK does with another mapper, by the two answers to the reads of the vector (R265, R303). -/
theorem exec_brk_other {s : State} (hm : s.bus.mapper = .other) :
    let pushed := pushBytes
      [highByte (s.regs.pc + 2#16), lowByte (s.regs.pc + 2#16), statusByte { s.regs.p with b := true }]
      s.regs.sp s.bus.ram
    match answeredWord s.bus.draws 0xFFFE#16 with
    | .ok pc => ∃ t, exec .brk s = .next t ∧ t.bus.ram = pushed ∧
        t.regs = { s.regs with sp := s.regs.sp - 3#8, p := { s.regs.p with b := true, i := true }, pc := pc }
    | .error (a, d) => ∃ r t, exec .brk s = .fault (.mapperFault r t) ∧ r.access = .read ∧ r.address = a ∧
        r.opcode = some 0x00#8 ∧ r.detail = some d ∧ t.regs = s.regs ∧ t.bus.ram = pushed := by
  have htake := takeInterrupt_other (v := 0xFFFE#16) (s.regs.pc + 2#16) (statusByte { s.regs.p with b := true })
    (s := (past s 1).withFlags { s.regs.p with b := true }) (by decide) (by decide) (by exact hm)
  rw [State.withFlags_bus, past_bus] at htake
  rw [exec_brk]
  cases ha : answeredWord s.bus.draws 0xFFFE#16 with
  | ok pc =>
    rw [ha] at htake
    obtain ⟨t, ht, hram, hregs⟩ := htake
    exact ⟨t, by rw [ht, complete_ok], hram, hregs⟩
  | error failure =>
    rw [ha] at htake
    obtain ⟨t, ht, hram⟩ := htake
    exact ⟨_, faultedState s _ _ t, by rw [ht, complete_fault]; rfl, rfl, rfl, rfl, rfl, rfl, hram⟩

end Sys2Proof.Machine

namespace Sys2Proof.Claims

open Sys2Proof.Machine

/-! ### The obligations -/

/-- Settles O34: each row has the bytes, the offset and the condition of its form. -/
theorem branchesFollowTheirFlag : Obligations.BranchesFollowTheirFlag :=
  fun _ _ => branches_of_columns rfl

/-- Settles O40: the word pulled is the return address pushed. -/
theorem rtsUndoesJsr : Obligations.RtsUndoesJsr := by
  intro w s hs
  have hram := State.wf_ram hs
  have hsp : s.regs.sp - 2#8 + 2#8 = s.regs.sp := BitVec.sub_add_cancel _ _
  have hlo : s.regs.sp - 2#8 + 1#8 = s.regs.sp - 1#8 := by bv_omega
  have hpc : s.regs.pc + 2#16 + 1#16 = s.regs.pc + 3#16 := by bv_omega
  refine ⟨_, _, exec_jsr w s, exec_rts _, ?_⟩
  simp (disch := simp) only [onRegs, ramPut, hsp, hlo, hpc, joinBytes_stackByte_pushBytes hram]

/-- Settles O41: the status and the word pulled are those pushed. -/
theorem rtiUndoesBrk : Obligations.RtiUndoesBrk := by
  intro s hs hm
  have hram := State.wf_ram hs
  have hsp : s.regs.sp - 3#8 + 3#8 = s.regs.sp := BitVec.sub_add_cancel _ _
  have hlo : s.regs.sp - 3#8 + 2#8 = s.regs.sp - 1#8 := by bv_omega
  have hstatus : s.regs.sp - 3#8 + 1#8 = s.regs.sp - 2#8 := by bv_omega
  refine ⟨_, _, exec_brk_reference hm, exec_rti _, ?_⟩
  simp (disch := simp) only [onRegs, ramPut, hsp, hlo, hstatus, joinBytes_stackByte_pushBytes hram,
    stackByte_pushBytes_third hram, flagsOf_statusByte]

/-- Settles O36, by the encoding of JSR and its closed form. -/
theorem jsrPushesItsLastAddress : Obligations.JsrPushesItsLastAddress :=
  fun w s => ⟨decode_encode (.jsr w), exec_jsr w s⟩

/-- Settles O37, by the closed form of RTS over the two pulls. -/
theorem rtsReturnsPastTheWord : Obligations.RtsReturnsPastTheWord :=
  ⟨decode_encode .rts, exec_rts⟩

/-- Settles O38, by the closed form of returning from an interrupt. -/
theorem rtiRestoresFlagsAndPc : Obligations.RtiRestoresFlagsAndPc :=
  ⟨decode_encode .rti, exec_rti⟩

/-- Settles O39, mapper by mapper; another mapper's by its first and then its second answer. -/
theorem brkGoesThroughTheVector : Obligations.BrkGoesThroughTheVector := by
  refine ⟨decode_encode .brk, fun s => ⟨exec_brk_reference, fun hm => ?_⟩⟩
  have hbrk := exec_brk_other hm
  cases hlo : Config.otherMapperRead s.bus.draws 0xFFFE#16 with
  | error d =>
    rw [answeredWord_of_low_error hlo] at hbrk
    exact hbrk
  | ok lo =>
    cases hhi : Config.otherMapperRead (s.bus.draws + 1) 0xFFFF#16 with
    | error d =>
      rw [answeredWord_of_high_error hlo hhi] at hbrk
      exact hbrk
    | ok hi =>
      rw [answeredWord_of_ok hlo hhi] at hbrk
      exact hbrk

end Sys2Proof.Claims
end

section
/-! PROOF. The statement about the flag instructions and NOP (spec/46_flags_misc.md). -/

namespace Sys2Proof.Claims

open Sys2Proof.Machine

/-! ### The obligation -/

/-- Settles O42: the rows are the encodings and the register effects of the seven flag instructions and NOP. -/
theorem flagInstructionsAndNop : Obligations.FlagInstructionsAndNop := changesRegisters_of_columns rfl

end Sys2Proof.Claims
end

section
/-! PROOF. The statements about faults and interrupts (spec/60_exceptions.md): what a step that faults leaves, where an
instruction completes, the writes before a fault, and interrupt entry with the RTI that undoes it. -/

namespace Sys2Proof.Machine

open Sys2Proof.Claims

/-! ### A write that faults -/

/-- All that a faulting write can be: of the unmapped range, or of another mapper that fails. -/
theorem writeByte_fault {a : Word} {v : Byte} {s t : State} {e : Raised} (h : writeByte a v s = .fault e t) :
    (inHole a ∧ t = s) ∨ (s.bus.mapper = .other ∧ t = s.withBus s.bus.draw) := by
  unfold writeByte at h
  split at h <;> rename_i ha
  · cases h
  · cases h
  · cases h
  · cases h
    exact .inl ⟨decodeAddress_eq_unmapped ha, rfl⟩
  · unfold mapperWrite at h
    split at h <;> rename_i hm
    · cases h
    · split at h
      · cases h
      · cases h
        exact .inr ⟨hm, rfl⟩

/-- A write that faults has written nothing. -/
theorem writeByte_fault_ram {a : Word} {v : Byte} {s t : State} {e : Raised} (h : writeByte a v s = .fault e t) :
    t.bus.ram = s.bus.ram := by
  obtain ⟨-, rfl⟩ | ⟨-, rfl⟩ := writeByte_fault h <;> rfl

/-- A write of the unmapped range faults and changes nothing (R58, R300). -/
theorem writeByte_unmapped {a : Word} (h : inHole a) (v : Byte) (s : State) :
    writeByte a v s = .fault ⟨.unmappedAddress, .write, a, none⟩ s := by
  obtain ⟨hlo, hhi⟩ := h
  simp only [writeByte, decodeAddress_unmapped hlo hhi]

/-! ### Operations that complete -/

/-- The operation answers a value. -/
def Res.Completes {α : Type} (r : Res α) : Prop := ∃ v t, r = .ok v t

theorem Res.completes_ok {α : Type} (v : α) (t : State) : (Res.ok v t).Completes := ⟨v, t, rfl⟩

theorem Res.Completes.ne_fault {α : Type} {r : Res α} {e : Raised} {t : State} (h : r.Completes) :
    r ≠ .fault e t := by
  obtain ⟨v, u, rfl⟩ := h
  nofun

theorem Res.not_completes_fault {α : Type} (e : Raised) (t : State) : ¬ (Res.fault e t : Res α).Completes :=
  fun h => h.ne_fault rfl

/-- A sequence whose second part completes wherever it starts completes with its first part. -/
theorem Res.completes_bind_iff {α β : Type} {r : Res α} {f : α → State → Res β}
    (h : ∀ v t, r = .ok v t → (f v t).Completes) : (r.bind f).Completes ↔ r.Completes := by
  cases r with
  | ok v t => exact iff_of_true (h v t rfl) (completes_ok v t)
  | fault e t => exact iff_of_false (not_completes_fault e t) (not_completes_fault e t)

/-- A sequence whose second part always completes faults where its first part does. -/
theorem Res.fault_of_bind_fault {α β : Type} {r : Res α} {f : α → State → Res β} {e : Raised} {t : State}
    (hf : ∀ v u, (f v u).Completes) (h : r.bind f = .fault e t) : r = .fault e t := by
  cases r with
  | ok v u => exact absurd h (hf v u).ne_fault
  | fault e' u => cases h; rfl

theorem readByte_completes_iff {k : AccessKind} {a : Word} {s : State} (hm : s.bus.mapper = .reference) :
    (readByte k a s).Completes ↔ ¬ inHole a := by
  constructor
  · rintro hc ⟨hlo, hhi⟩
    rw [readByte_unmapped k hlo hhi] at hc
    exact Res.not_completes_fault _ _ hc
  · intro ha
    cases hr : readByte k a s with
    | ok v t => exact Res.completes_ok v t
    | fault e t =>
      obtain ⟨-, -, ⟨hlo, hhi, -⟩ | ⟨-, hother, -⟩⟩ := readByte_fault hr
      · exact absurd ⟨hlo, hhi⟩ ha
      · rw [hm] at hother; cases hother

theorem writeByte_completes_iff {a : Word} {v : Byte} {s : State} (hm : s.bus.mapper = .reference) :
    (writeByte a v s).Completes ↔ ¬ inHole a := by
  constructor
  · intro hc ha
    rw [writeByte_unmapped ha] at hc
    exact Res.not_completes_fault _ _ hc
  · intro ha
    cases hw : writeByte a v s with
    | ok x t => exact Res.completes_ok x t
    | fault e t =>
      obtain ⟨hhole, -⟩ | ⟨hother, -⟩ := writeByte_fault hw
      · exact absurd hhole ha
      · rw [hm] at hother; cases hother

/-- Two reads one after another complete exactly when neither address lies in the hole. -/
theorem readTwo_completes_iff {α : Type} {k : AccessKind} {a b : Word} {f : Byte → Byte → α} {s : State}
    (hm : s.bus.mapper = .reference) :
    ((readByte k a s).bind fun x s1 => (readByte k b s1).bind fun y s2 => .ok (f x y) s2).Completes ↔
      ¬ inHole a ∧ ¬ inHole b := by
  cases hr : readByte k a s with
  | fault e t =>
    have ha : ¬ ¬ inHole a := by
      rw [← readByte_completes_iff (k := k) hm, hr]
      exact Res.not_completes_fault e t
    exact iff_of_false (Res.not_completes_fault e t) fun h => ha h.1
  | ok x t =>
    have ha : ¬ inHole a := (readByte_completes_iff hm).mp ⟨x, t, hr⟩
    have hmt : t.bus.mapper = .reference := (readByte_ok_keeps hr).2.trans hm
    rw [Res.bind_ok, Res.completes_bind_iff fun y u _ => Res.completes_ok (f x y) u, readByte_completes_iff hmt]
    exact (and_iff_right ha).symm

/-- Only BRK, of the Implied instructions, reads outside work RAM: the others never fault. -/
theorem runImplied_completes {op : ImpliedOp} {s : State} (h : op = .brk → s.bus.mapper = .reference) :
    (runImplied op s).Completes := by
  cases op with
  | pha | php => rw [runImplied, push8_eq]; exact Res.completes_ok _ _
  | pla | plp => rw [runImplied, pull8_eq]; exact Res.completes_ok _ _
  | rts => rw [runImplied, pull16_eq]; exact Res.completes_ok _ _
  | rti => rw [runImplied, returnFromInterrupt_eq]; exact Res.completes_ok _ _
  | brk =>
    exact ⟨_, _, takeInterrupt_reference (s := s.withFlags { s.regs.p with b := true }) _ _ (by decide) (by decide)
      (h rfl)⟩
  | _ => exact Res.completes_ok _ _

/-- JSR never faults. -/
theorem runForm_call_completes (w : Word) (s : State) : (runForm (.call w) s).Completes := by
  rw [runForm, push16_eq]
  exact Res.completes_ok _ _

/-! ### Where an instruction completes -/

/-- The effective address of a memory operand, as the list of one address (the empty list never arises). -/
def effectiveAddresses (m : MemArg) (s : State) : List Word :=
  match effectiveAddress m s with
  | .ok a _ => [a]
  | .fault _ _ => []

/-- The operand addresses of a form that runs in `s`, PC past its bytes. -/
def formAddresses (f : Form) (s : State) : List Word :=
  match f with
  | .read _ (.mem m) => effectiveAddresses m s
  | .write _ m => effectiveAddresses m s
  | .modify _ (.mem m) => effectiveAddresses m s
  | .jump (.ind p) => [p, joinBytes (highByte p) (lowByte p + 1#8)]
  | _ => []

theorem operandAddresses_eq_formAddresses (i : Instr) (s : State) :
    operandAddresses i s = formAddresses i.form (past s i.length) := rfl

theorem effectiveAddresses_of_ok {m : MemArg} {s : State} {ea : Word} (h : effectiveAddress m s = .ok ea s) :
    effectiveAddresses m s = [ea] := by
  rw [effectiveAddresses, h]

/-- A read-modify-write on memory completes where its one read does: the write goes to the same address. -/
theorem runModify_mem_completes_iff {f : Byte → Flags → Byte × Flags} {m : MemArg} {s : State} {ea : Word}
    (hm : s.bus.mapper = .reference) (hea : effectiveAddress m s = .ok ea s) :
    (runModify f (.mem m) s).Completes ↔ ¬ inHole ea := by
  rw [← readByte_completes_iff (k := .read) hm]
  cases hread : readByte .read ea s with
  | fault e t =>
    rw [runModify_mem_of_read_fault hea hread]
    exact iff_of_false (Res.not_completes_fault e t) (Res.not_completes_fault e t)
  | ok v u =>
    have hmu : u.bus.mapper = .reference := (readByte_ok_keeps hread).2.trans hm
    have hea' : ¬ inHole ea := (readByte_completes_iff hm).mp ⟨v, u, hread⟩
    rw [runModify_mem_of_read hea hread, Res.completes_bind_iff fun _ t _ => Res.completes_ok () _,
      writeByte_completes_iff hmu]
    exact iff_of_true hea' (Res.completes_ok v u)

/-- With the reference mapper a form completes exactly when none of its operand addresses lies in the hole. -/
theorem runForm_completes_iff {f : Form} {s : State} (hm : s.bus.mapper = .reference) :
    (runForm f s).Completes ↔ ∀ a ∈ formAddresses f s, ¬ inHole a := by
  cases f with
  | read op src =>
    rw [runForm, Res.completes_bind_iff fun v t _ => Res.completes_ok () _]
    cases src with
    | imm v => exact iff_of_true (Res.completes_ok v s) (List.forall_mem_nil _)
    | mem m =>
      obtain ⟨ea, hea⟩ := effectiveAddress_pure m s
      rw [loadRead, hea, Res.bind_ok, readByte_completes_iff hm, formAddresses, effectiveAddresses_of_ok hea,
        List.forall_mem_singleton]
  | write op m =>
    obtain ⟨ea, hea⟩ := effectiveAddress_pure m s
    rw [runForm, hea, Res.bind_ok, writeByte_completes_iff hm, formAddresses, effectiveAddresses_of_ok hea,
      List.forall_mem_singleton]
  | modify op tgt =>
    cases tgt with
    | acc => exact iff_of_true (Res.completes_ok () _) (List.forall_mem_nil _)
    | mem m =>
      obtain ⟨ea, hea⟩ := effectiveAddress_pure m s
      rw [runForm, runModify_mem_completes_iff hm hea, formAddresses, effectiveAddresses_of_ok hea,
        List.forall_mem_singleton]
  | branch op d => exact iff_of_true (Res.completes_ok () _) (List.forall_mem_nil _)
  | jump j =>
    rw [runForm, Res.completes_bind_iff fun v t _ => Res.completes_ok () _]
    cases j with
    | abs w => exact iff_of_true (Res.completes_ok w s) (List.forall_mem_nil _)
    | ind p =>
      rw [jumpTarget, readTwo_completes_iff (f := fun tl th => joinBytes th tl) hm, formAddresses,
        List.forall_mem_cons, List.forall_mem_singleton]
  | call w => exact iff_of_true (runForm_call_completes w s) (List.forall_mem_nil _)
  | implied op => exact iff_of_true (runImplied_completes fun _ => hm) (List.forall_mem_nil _)

/-- An instruction answers a next state exactly when its form completes, PC past its bytes. -/
theorem exec_next_iff_completes (i : Instr) (s : State) :
    (∃ t, exec i s = .next t) ↔ (runForm i.form (past s i.length)).Completes := by
  constructor
  · rintro ⟨t, h⟩
    exact ⟨(), t, runForm_of_exec_next h⟩
  · rintro ⟨v, t, h⟩
    exact ⟨t, by rw [exec_eq_past, length_encode, h, complete_ok]⟩

/-! ### What a fault leaves in work RAM -/

theorem runModify_fault_ram {f : Byte → Flags → Byte × Flags} {tgt : ModifyArg} {s t : State} {e : Raised}
    (h : runModify f tgt s = .fault e t) : t.bus.ram = s.bus.ram := by
  cases tgt with
  | acc => cases h
  | mem m =>
    obtain ⟨ea, hea⟩ := effectiveAddress_pure m s
    have hreadRam := (readByte_keeps .read ea s).2
    cases hread : readByte .read ea s with
    | fault e' u =>
      rw [runModify_mem_of_read_fault hea hread] at h
      cases h
      rw [hread] at hreadRam
      exact hreadRam
    | ok v u =>
      rw [runModify_mem_of_read hea hread] at h
      rw [hread] at hreadRam
      have hwrite := Res.fault_of_bind_fault (fun _ _ => Res.completes_ok () _) h
      exact (writeByte_fault_ram hwrite).trans hreadRam

/-- Of all forms only BRK can have written work RAM before it faults (R303). -/
theorem runForm_fault_ram {f : Form} {s t : State} {e : Raised} (hf : f ≠ .implied .brk)
    (h : runForm f s = .fault e t) : t.bus.ram = s.bus.ram := by
  cases f with
  | read op src =>
    have hload := Res.fault_of_bind_fault (fun _ _ => Res.completes_ok () _) h
    have hram := (loadRead_keeps src s).2
    rwa [hload] at hram
  | write op m =>
    obtain ⟨ea, hea⟩ := effectiveAddress_pure m s
    rw [runForm, hea, Res.bind_ok] at h
    exact writeByte_fault_ram h
  | modify op tgt => exact runModify_fault_ram h
  | branch op d => cases h
  | jump j =>
    have htarget := Res.fault_of_bind_fault (fun _ _ => Res.completes_ok () _) h
    have hram := (jumpTarget_keeps j s).2
    rwa [htarget] at hram
  | call w => exact absurd h (runForm_call_completes w s).ne_fault
  | implied op =>
    have hop : op ≠ .brk := fun hop => hf (congrArg Form.implied hop)
    exact absurd h (runImplied_completes fun hbrk => absurd hbrk hop).ne_fault

/-! ### Interrupt entry -/

/-- The status that interrupt entry pushes has bit 4 = 0 (R312). -/
theorem serialize_and_eq_statusByte (p : Flags) : p.serialize &&& 0xEF#8 = statusByte { p with b := false } := by
  obtain ⟨n, v, b, d, i, z, c⟩ := p
  revert n v b d i z c
  decide

/-- Whichever interrupt is taken, the NMI latch is clear once it is acknowledged (R310, R314). -/
theorem acknowledge_of_pending {k : InterruptKind} {s : State} (h : pendingInterrupt s = some k) :
    acknowledge k s = s.withNmi false := by
  cases k with
  | nmi => rfl
  | irq =>
    cases hnmi : s.nmiPending with
    | false => rw [acknowledge, ← hnmi]; rfl
    | true => simp [pendingInterrupt, hnmi] at h

/-- What interrupt entry does before it ends the step: PC and the status with bit 4 = 0 pushed, the NMI latch clear, I
set, and PC from the vector (R312). -/
def takePending (k : InterruptKind) (s : State) : Res Unit :=
  takeInterrupt k.vector s.regs.pc (statusByte { s.regs.p with b := false }) (s.withNmi false)

/-- The step at a boundary where an interrupt is taken is its entry (R314). -/
theorem step_of_pending {k : InterruptKind} {s : State} (hf : s.fault = none) (h : pendingInterrupt s = some k) :
    step s = interruptEntry k s := by
  obtain ⟨k', hk', hstep⟩ | ⟨hnone, -⟩ := step_cases hf
  · cases h.symm.trans hk'
    exact hstep
  · rw [hnone] at h; cases h

/-- An entry that completes leaves a diagnostic record with no opcode (R312). -/
theorem step_of_takePending_ok {k : InterruptKind} {s t : State} (hf : s.fault = none)
    (h : pendingInterrupt s = some k) (htake : takePending k s = .ok () t) :
    step s = .next (t.withDiag (some ⟨snapshotOf t.regs, s.regs.pc, none⟩)) := by
  rw [takePending, ← serialize_and_eq_statusByte] at htake
  simp only [step_of_pending hf h, interruptEntry, acknowledge_of_pending h, htake, recordDiagnostics,
    snapshot_eq_snapshotOf]

/-- An entry whose vector read faults ends the step, with no opcode in the record (R303, R305). -/
theorem step_of_takePending_fault {k : InterruptKind} {s t : State} {e : Raised} (hf : s.fault = none)
    (h : pendingInterrupt s = some k) (htake : takePending k s = .fault e t) :
    step s = endWithFault s none e t := by
  rw [takePending, ← serialize_and_eq_statusByte] at htake
  simp only [step_of_pending hf h, interruptEntry, acknowledge_of_pending h, htake]

/-- Both bytes of an interrupt's vector lie in cartridge space (R313). -/
theorem InterruptKind.vector_in_cartridge (k : InterruptKind) :
    0x8000 ≤ k.vector.toNat ∧ 0x8000 ≤ (k.vector + 1#16).toNat := by
  cases k <;> decide

/-- The word at a vector of the reference mapper's bank, by the bank's indexes. -/
theorem joinBytes_prgIndex_eq_bankWord (k : InterruptKind) (m : Memory) :
    joinBytes (Memory.read m (prgIndex (k.vector + 1#16))) (Memory.read m (prgIndex k.vector)) =
      bankWord m k.vector := by
  cases k <;> rfl

/-- Where an interrupt is taken, the step enters through its vector (R312, R314). -/
theorem entersThrough_of_pending {k : InterruptKind} {s : State} (hf : s.fault = none)
    (h : pendingInterrupt s = some k) : EntersThrough k.vector s := by
  obtain ⟨hlo, hhi⟩ := k.vector_in_cartridge
  refine ⟨fun hm => ?_, fun hm => ?_⟩
  · have htake : takePending k s = _ := takeInterrupt_reference _ _ hlo hhi (by exact hm)
    rw [step_of_takePending_ok hf h htake, State.withNmi_bus, joinBytes_prgIndex_eq_bankWord, pushedThree_eq]
    rfl
  · have htake := takeInterrupt_other s.regs.pc (statusByte { s.regs.p with b := false }) (s := s.withNmi false)
      hlo hhi hm
    have hw : Within (s.withNmi false) (takePending k s).state := takeInterrupt_within _ _ _ _
    rw [State.withNmi_bus, State.withNmi_regs, ← takePending] at htake
    cases ha : answeredWord s.bus.draws k.vector with
    | ok pc =>
      rw [ha] at htake
      obtain ⟨t, ht, hram, hregs⟩ := htake
      rw [ht, Res.state_ok] at hw
      refine ⟨_, step_of_takePending_ok hf h ht, hregs, hram, hw.nmiPending, hw.fault.trans hf, ?_⟩
      rw [State.withDiag_diag, hregs]
    | error failure =>
      rw [ha] at htake
      obtain ⟨t, ht, hram⟩ := htake
      exact ⟨_, faultedState s none _ t, step_of_takePending_fault hf h ht, rfl, rfl, rfl, rfl,
        snapshot_eq_snapshotOf _, rfl, rfl, rfl, hram⟩

/-- RTI takes back the flags and the word that an interrupt pushed at `sp` (R264). -/
theorem exec_rti_of_pushed {t : State} {w : Word} {p : Flags} {sp : Byte} {m : Memory}
    (hm : Memory.wf Memory.ramSize m = true) (hsp : t.regs.sp = sp - 3#8)
    (hram : t.bus.ram = pushBytes [highByte w, lowByte w, statusByte p] sp m) :
    ∃ u, exec .rti t = .next u ∧ u.regs = { t.regs with sp := sp, p := p, pc := w } := by
  have hstatus : sp - 3#8 + 1#8 = sp - 2#8 := by bv_omega
  have hlo : sp - 3#8 + 2#8 = sp - 1#8 := by bv_omega
  have hhi : sp - 3#8 + 3#8 = sp := BitVec.sub_add_cancel _ _
  refine ⟨_, exec_rti t, ?_⟩
  rw [onRegs_regs]
  simp (disch := simp) only [ramPut, hsp, hram, hstatus, hlo, hhi, joinBytes_stackByte_pushBytes hm,
    stackByte_pushBytes_third hm, flagsOf_statusByte]

end Sys2Proof.Machine

namespace Sys2Proof.Claims

open Sys2Proof.Machine

/-! ### The obligations -/

/-- Settles O54: a step that faults ends with the record and the registers of its start, and a faulted state repeats
itself. -/
theorem faultsArePreciseAndSticky : Obligations.FaultsArePreciseAndSticky := by
  intro s f hf hstep
  obtain ⟨nmi, u, -, ⟨d, hnext⟩ | ⟨op, e, hfault⟩⟩ := step_outcomeWithin hf
  · rw [hnext] at hstep; cases hstep
  · rw [hfault] at hstep
    obtain rfl := Host.Outcome.fault.inj hstep
    exact ⟨_, faultedState s op e u, rfl, rfl, rfl, rfl, snapshot_eq_snapshotOf _, step_of_fault rfl⟩

/-- Settles O55: outside BRK nothing is written before the access that faults. -/
theorem onlyBrkWritesBeforeAFault : Obligations.OnlyBrkWritesBeforeAFault := by
  intro i s f h hi
  obtain ⟨-, -, hinj⟩ := instructionsAreTheAllowedForms
  obtain ⟨t, hnext, -⟩ | ⟨e, u, hfault, hrun, hw⟩ := exec_cases i s
  · rw [hnext] at h; cases h
  · rw [hfault] at h
    obtain rfl := Host.Outcome.fault.inj h
    have hram := runForm_fault_ram (s := s.advance i.length) (fun hform => hi (hinj i .brk hform)) hrun
    rw [State.advance_bus] at hram
    exact ⟨_, faultedState s (some i.opcode) e u, rfl, fun a => hw.peek_eq fun _ _ => by rw [hram]⟩

/-- Settles O17, by the form of the instruction. -/
theorem instructionsCompleteOffTheHole : Obligations.InstructionsCompleteOffTheHole := by
  intro i s hm
  rw [exec_next_iff_completes, operandAddresses_eq_formAddresses]
  exact runForm_completes_iff hm

/-- Settles O57: the NMI comes first, and the IRQ is taken when I is clear. -/
theorem interruptEntryAtTheBoundary : Obligations.InterruptEntryAtTheBoundary := by
  intro s hf
  refine ⟨fun hnmi => ?_, fun hnmi hirq hi => ?_⟩
  · exact entersThrough_of_pending (k := .nmi) hf (by simp [pendingInterrupt, hnmi])
  · exact entersThrough_of_pending (k := .irq) hf (by simp [pendingInterrupt, hnmi, hirq, hi])

/-- Settles O58: RTI takes back what the entry pushed. -/
theorem rtiUndoesInterruptEntry : Obligations.RtiUndoesInterruptEntry := by
  intro s hs hf hm hpending
  obtain ⟨hentryNmi, hentryIrq⟩ := interruptEntryAtTheBoundary s hf
  obtain ⟨v, hentry, -⟩ : ∃ v, EntersThrough v s := by
    cases hnmi : s.nmiPending with
    | true => exact ⟨_, hentryNmi hnmi⟩
    | false =>
      obtain hnmi' | ⟨hirq, hi⟩ := hpending
      · rw [hnmi] at hnmi'; cases hnmi'
      · exact ⟨_, hentryIrq hnmi hirq hi⟩
  exact ⟨_, exists_and_left.mpr ⟨hentry hm, exec_rti_of_pushed (State.wf_ram hs) rfl rfl⟩⟩

end Sys2Proof.Claims
end
